-- ==== Sys2Proof/Word.lean ====
section
/-! DEFINITION. Sys2Proof/Word.lean: the plain data types of spec/00_scope.md section 4: bytes, byte strings, 128-bit blocks. -/

namespace Sys2Proof

/-- A byte is 8 bits (R15). -/
abbrev Byte := BitVec 8

/-- A finite sequence of bytes, first byte first (R15). -/
abbrev Bytes := List Byte

/-- `B128`, the type of 128-bit values (R16); every block of the engine is one (R7). -/
abbrev Block := BitVec 128

end Sys2Proof
end

