-- ==== Sys2Proof/Machine/Bytes.lean ====
section
/-! DEFINITION. Sys2Proof/Machine/Bytes.lean: byte order and bit numbering (R16 to R19, R64, R65). Everything is big-endian. -/

namespace Sys2Proof.Machine

/-- The `w`-bit value of a byte string read big-endian, first byte most significant (R17, R65). -/
def ofBytesBE (w : Nat) (b : Bytes) : BitVec w :=
  b.foldl (fun acc x => (acc <<< 8) ||| x.setWidth w) 0

/-- The low `8 * n` bits of a value as `n` bytes, most significant first (R17, R65). -/
def toBytesBE {w : Nat} (n : Nat) (v : BitVec w) : Bytes :=
  (List.range n).map fun k => v.extractLsb' (8 * (n - 1 - k)) 8

/-- `blk(b)`: a 16-byte string as a block (R17). -/
def blk (b : Bytes) : Block := ofBytesBE 128 b

/-- `bytes16(v)`, the inverse of `blk` (R17). -/
def bytes16 (v : Block) : Bytes := toBytesBE 16 v

/-- `byte(v, p) = v[127-8p : 120-8p]`, the byte at string position `p <= 15` (R17). -/
def getByte (v : Block) (p : Nat) : Byte := v.extractLsb' (120 - 8 * p) 8

/-- `setbyte(v, p, c)`: `v` with the byte at string position `p <= 15` replaced by `c` (R17). -/
def setByte (v : Block) (p : Nat) (c : Byte) : Block :=
  (v &&& ~~~((0xFF : Block) <<< (120 - 8 * p))) ||| (c.setWidth 128 <<< (120 - 8 * p))

/-- `be64(n)`, the 8-byte big-endian string of `n < 2^64` (R19). -/
def be64 (n : Nat) : Bytes := toBytesBE 8 (BitVec.ofNat 64 n)

/-- `be32(n)`, the 4-byte big-endian string of `n < 2^32` (R19). -/
def be32 (n : Nat) : Bytes := toBytesBE 4 (BitVec.ofNat 32 n)

/-- `zeros(n)` (R15). -/
def zeros (n : Nat) : Bytes := List.replicate n 0

/-- `pad16(b)`: `b` zero-padded on the right to a multiple of 16 bytes (R19). -/
def pad16 (b : Bytes) : Bytes := b ++ zeros ((16 - b.length % 16) % 16)

/-- The first `n` 16-byte blocks of a string. -/
def takeBlocks : Nat → Bytes → List Block
  | 0, _ => []
  | n + 1, b => blk (b.take 16) :: takeBlocks n (b.drop 16)

/-- `blocks(b)` for a string whose length is a multiple of 16 (R19). -/
def blocks (b : Bytes) : List Block := takeBlocks (b.length / 16) b

/-- `gbit(v, i) = v[127-i]` for `i <= 127`: the coefficient of `x^i` (R18, R110). -/
def gbit (v : Block) (i : Nat) : Bool := v.getLsbD (127 - i)

end Sys2Proof.Machine
end

