-- ==== Sys2Proof/Machine/Operands.lean ====
section
/-! DEFINITION. Sys2Proof/Machine/Operands.lean: the descriptor's fields and the operand strings `OpA` and `OpB` of a command packet
(R62, R81 to R83, R86). -/

namespace Sys2Proof.Machine

/-- The descriptor `D = {W0, W1, W2}` (R81). -/
abbrev Descriptor := BitVec 192

/-- `OPC = D[191:188]` (R81). -/
def opcField (d : Descriptor) : BitVec 4 := d.extractLsb' 188 4

/-- `DIR = D[187]` (R81). -/
def dirField (d : Descriptor) : BitVec 1 := d.extractLsb' 187 1

/-- `RSV0 = D[186:184]` (R81). -/
def rsv0Field (d : Descriptor) : BitVec 3 := d.extractLsb' 184 3

/-- `TAGLEN = D[183:176]` (R81). -/
def taglenField (d : Descriptor) : BitVec 8 := d.extractLsb' 176 8

/-- `RSV1 = D[175:128]` (R81). -/
def rsv1Field (d : Descriptor) : BitVec 48 := d.extractLsb' 128 48

/-- `RSV2 = D[127:125]` (R81). -/
def rsv2Field (d : Descriptor) : BitVec 3 := d.extractLsb' 125 3

/-- `LEN_A = D[124:64]` (R81). -/
def lenAField (d : Descriptor) : BitVec 61 := d.extractLsb' 64 61

/-- `RSV3 = D[63:61]` (R81). -/
def rsv3Field (d : Descriptor) : BitVec 3 := d.extractLsb' 61 3

/-- `LEN_B = D[60:0]` (R81). -/
def lenBField (d : Descriptor) : BitVec 61 := d.extractLsb' 0 61

/-- Building a descriptor from its fields, reserved bits zero (R81). -/
def makeDescriptor (opc : BitVec 4) (dir : BitVec 1) (taglen : BitVec 8) (lenA lenB : BitVec 61) : Descriptor :=
  opc ++ dir ++ (0 : BitVec 3) ++ taglen ++ (0 : BitVec 48) ++ (0 : BitVec 3) ++ lenA ++ (0 : BitVec 3) ++ lenB

/-- What the command stream offers the engine (R61, R73). -/
inductive Frame where
  /-- No byte of a packet is there: the engine waits for the first one (R260). -/
  | idle
  /-- A packet has begun and is not whole: no step until its bytes arrive (R73). -/
  | truncated
  /-- A whole packet: descriptor, `OpA`, `OpB`, and the stream after it. -/
  | packet (d : Descriptor) (opA opB rest : Bytes)
deriving DecidableEq, Repr

/-- Framing: 24 descriptor bytes, then `LEN_A` and `LEN_B` operand bytes, whatever the other fields hold (R83, R92). -/
def frame (stream : Bytes) : Frame :=
  match stream with
  | [] => .idle
  | _ :: _ =>
    if stream.length < 24 then .truncated
    else
      let d := ofBytesBE 192 (stream.take 24)
      let body := stream.drop 24
      let a := (lenAField d).toNat
      let b := (lenBField d).toNat
      if body.length < a + b then .truncated
      else .packet d (body.take a) ((body.drop a).take b) (body.drop (a + b))

end Sys2Proof.Machine
end

