-- ==== Sys2Proof/Syntax.lean ====
section
/-! DEFINITION. Sys2Proof/Syntax.lean: the commands of the engine (R80), one constructor per row of spec/opcode_table.json.
`ILLEGAL` of R80 is no row of the table: it is an answer of the decoder, see Sys2Proof/Decode.lean. -/

namespace Sys2Proof

/-- The direction of an UPDATE (R80). -/
inductive Dir where
  | enc
  | dec
deriving DecidableEq, Repr

/-- The six commands (R80, R84). -/
inductive Instr where
  /-- `INIT key` (R192). -/
  | init (key : Bytes)
  /-- `START iv, aad` (R193). -/
  | start (iv aad : Bytes)
  /-- `UPDATE.E chunk`, plaintext in, ciphertext out (R195). -/
  | updateE (chunk : Bytes)
  /-- `UPDATE.D chunk`, ciphertext in, plaintext out (R196). -/
  | updateD (chunk : Bytes)
  /-- `FINISH.E taglen`, `taglen` in bits, 0 to 255 (R198). -/
  | finishE (taglen : BitVec 8)
  /-- `FINISH.D taglen, tag` (R199). -/
  | finishD (taglen : BitVec 8) (tag : Bytes)
deriving DecidableEq, Repr

end Sys2Proof
end

