-- ==== Sys2Proof/WellFormed.lean ====
section
/-! DEFINITION. Sys2Proof/WellFormed.lean: which commands a descriptor can express: every operand byte string is shorter than
2^61 bytes (R12, R80). A longer operand is outside the model's input domain (93 U20); the 8-bit tag length needs no check. -/

namespace Sys2Proof

/-- An operand length fits its 61-bit field (R12). -/
def operandFits (b : Bytes) : Bool := decide (b.length < 2 ^ 61)

/-- A command the packet format can carry (R12, R80, R92). -/
def Instr.wf : Instr → Bool
  | .init key => operandFits key
  | .start iv aad => operandFits iv && operandFits aad
  | .updateE chunk => operandFits chunk
  | .updateD chunk => operandFits chunk
  | .finishE _ => true
  | .finishD _ tag => operandFits tag

end Sys2Proof
end

