-- ==== Sys2Proof/Decode.lean ====
section
/-! DEFINITION. Sys2Proof/Decode.lean: the decoder, total on any byte string, and the encoder (R80 to R88, R92). -/

namespace Sys2Proof

open Sys2Proof.Machine

/-- Why a descriptor is not well-formed (R85, R87). Every reason has the same effect, IllegalCommand (R238); the name says which
clause of R85 failed first. -/
inductive IllegalReason where
  /-- A reserved bit is set (R85 (a)). -/
  | reservedBits
  /-- `OPC` is 0 or 5 to 15 (R85 (b)). -/
  | reservedOpcode
  /-- `DIR = 1` on INIT or START (R85 (c), (d)). -/
  | directionNotAllowed
  /-- `TAGLEN != 0` on INIT, START or UPDATE (R85 (c), (d), (e)). -/
  | taglenNotAllowed
  /-- `LEN_B != 0` on INIT, UPDATE or FINISH (R85 (c), (e), (f)). -/
  | operandBNotAllowed
  /-- `LEN_A != 0` on FINISH.E (R85 (f)). -/
  | operandANotAllowed
deriving DecidableEq, Repr

/-- What the decoder makes of the head of a command stream (R92). -/
inductive Decoded where
  /-- The stream is empty. -/
  | idle
  /-- The stream ends inside its first packet (R73). -/
  | truncated
  /-- `ILLEGAL`: the packet is not well-formed (R87); `rest` is the stream after the whole packet (R83). -/
  | illegal (why : IllegalReason) (rest : Bytes)
  /-- A command and the stream after its packet. -/
  | command (i : Instr) (rest : Bytes)
deriving DecidableEq, Repr

/-- A check of R85: go on when it holds, else reject for the reason given. -/
def require (ok : Bool) (why : IllegalReason) (k : Except IllegalReason Instr) : Except IllegalReason Instr :=
  if ok then k else .error why

/-- Well-formedness (R85) and operand assembly (R86); operand bytes are never looked at (R92). -/
def decodeDescriptor (d : Descriptor) (opA opB : Bytes) : Except IllegalReason Instr :=
  require (rsv0Field d == 0 && rsv1Field d == 0 && rsv2Field d == 0 && rsv3Field d == 0) .reservedBits <|
  match (opcField d).toNat with
  | 1 =>
    require (dirField d == 0) .directionNotAllowed <|
    require (taglenField d == 0) .taglenNotAllowed <|
    require (lenBField d == 0) .operandBNotAllowed <| .ok (.init opA)
  | 2 =>
    require (dirField d == 0) .directionNotAllowed <|
    require (taglenField d == 0) .taglenNotAllowed <| .ok (.start opA opB)
  | 3 =>
    require (taglenField d == 0) .taglenNotAllowed <|
    require (lenBField d == 0) .operandBNotAllowed <|
    .ok (if dirField d == 0 then .updateE opA else .updateD opA)
  | 4 =>
    require (lenBField d == 0) .operandBNotAllowed <|
    if dirField d == 0 then
      require (lenAField d == 0) .operandANotAllowed <| .ok (.finishE (taglenField d))
    else .ok (.finishD (taglenField d) opA)
  | _ => .error .reservedOpcode

/-- The decoder (R92): framing first, then the descriptor. -/
def decode (stream : Bytes) : Decoded :=
  match frame stream with
  | .idle => .idle
  | .truncated => .truncated
  | .packet d opA opB rest =>
    match decodeDescriptor d opA opB with
    | .error why => .illegal why rest
    | .ok i => .command i rest

/-- `OpA` of a command (R86). -/
def Instr.opA : Instr → Bytes
  | .init key => key
  | .start iv _ => iv
  | .updateE chunk => chunk
  | .updateD chunk => chunk
  | .finishE _ => []
  | .finishD _ tag => tag

/-- `OpB` of a command (R86). -/
def Instr.opB : Instr → Bytes
  | .init _ => []
  | .start _ aad => aad
  | .updateE _ => []
  | .updateD _ => []
  | .finishE _ => []
  | .finishD _ _ => []

/-- `OPC` of a command (R84). -/
def Instr.opc : Instr → BitVec 4
  | .init _ => 1
  | .start _ _ => 2
  | .updateE _ => 3
  | .updateD _ => 3
  | .finishE _ => 4
  | .finishD _ _ => 4

/-- `DIR` of a command (R84). -/
def Instr.dirBit : Instr → BitVec 1
  | .init _ => 0
  | .start _ _ => 0
  | .updateE _ => 0
  | .updateD _ => 1
  | .finishE _ => 0
  | .finishD _ _ => 1

/-- `TAGLEN` of a command (R86). -/
def Instr.taglenBits : Instr → BitVec 8
  | .init _ => 0
  | .start _ _ => 0
  | .updateE _ => 0
  | .updateD _ => 0
  | .finishE taglen => taglen
  | .finishD taglen _ => taglen

/-- The descriptor of a command (R81, R86). -/
def Instr.descriptor (i : Instr) : Descriptor :=
  makeDescriptor i.opc i.dirBit i.taglenBits (BitVec.ofNat 61 i.opA.length) (BitVec.ofNat 61 i.opB.length)

/-- The packet of a command: `W0 ++ W1 ++ W2 ++ OpA ++ OpB` (R81). -/
def encode (i : Instr) : Bytes := toBytesBE 24 i.descriptor ++ i.opA ++ i.opB

/-- The packet whose descriptor is the opcode-table word `w`, numbered as the table numbers it (bit 191 is the top bit of
W0, the first byte; DEDUCED, log 10), with operand bytes of zero. -/
def packetOfTableWord (nbits w : Nat) : Bytes :=
  let d : Descriptor := BitVec.ofNat 192 (w % 2 ^ nbits)
  toBytesBE 24 d ++ zeros (lenAField d).toNat ++ zeros (lenBField d).toNat

/-- The instruction the decoder reads from an opcode-table word. -/
def decodeTableWord (nbits w : Nat) : Option Instr :=
  match decode (packetOfTableWord nbits w) with
  | .command i _ => some i
  | .idle => none
  | .truncated => none
  | .illegal _ _ => none

end Sys2Proof
end

