-- ==== Sys2Proof/Config.lean ====
section
/-! DEFINITION. Sys2Proof/Config.lean: what the spec leaves to the implementation: the block cipher (R3, R10; 93 U8, U9). Each open
value is an uninterpreted constant, so a claim holds for every cipher. The number of instances (R13) is an argument of
Sys2Proof/Machine/Platform.lean. -/

namespace Sys2Proof

/-- The key schedule `KS` of R10, opaque to the engine: no rule looks inside it, it is only handed back to the cipher.
DESIGN CHOICE (log 1, safe): its carrier is a byte string, so that State stays plain data. -/
structure KeySchedule where
  image : Bytes
deriving DecidableEq, Repr, Inhabited

/-- The cipher collaborator of R3 and R10, as the parameters the model takes: nothing is assumed of any of them. -/
structure Cipher where
  /-- `KEY_SIZES`: the byte lengths of key that `KeySetup` accepts (R10). -/
  keySizes : List Nat
  /-- What `KeySetup` makes of a key of an accepted length (R10). -/
  expandKey : Bytes → KeySchedule
  /-- `E(KS, block)`, total and deterministic (R10). -/
  encryptBlock : KeySchedule → Block → Block
  /-- A free value: what the cipher port would answer while `KS` is `none`. No rule reads it (R33). DESIGN CHOICE (log 2, safe). -/
  unboundBlock : Block → Block

/-- A key size the cipher accepts: "the chosen block-cipher key size" (R10, 92 D18: OPEN). Uninterpreted; DEDUCED, log 8. -/
opaque Config.firstKeySize : Nat

/-- The further key sizes, if any (R10, 92 D18: OPEN). Uninterpreted; log 8. -/
opaque Config.moreKeySizes : List Nat

/-- `KEY_SIZES`, at least one size (R10; DEDUCED, log 8). -/
def Config.keySizes : List Nat := Config.firstKeySize :: Config.moreKeySizes

/-- `KeySetup` on keys of an accepted length (R10, 92 D19: OPEN). Uninterpreted; log 1, safe. -/
opaque Config.expandKey : Bytes → KeySchedule

/-- `E : KS x B128 -> B128` (R10, 92 D19: OPEN). Uninterpreted; log 1, safe. -/
opaque Config.encryptBlock : KeySchedule → Block → Block

/-- A free value: the cipher's answer with no key schedule bound. Uninterpreted; DESIGN CHOICE, log 2, safe. -/
opaque Config.unboundBlock : Block → Block

/-- The cipher the machine is attached to. -/
def Config.cipher : Cipher where
  keySizes := Config.keySizes
  expandKey := Config.expandKey
  encryptBlock := Config.encryptBlock
  unboundBlock := Config.unboundBlock

end Sys2Proof
end

