-- ==== Sys2Proof/Machine/State.lean ====
section
/-! DEFINITION. Sys2Proof/Machine/State.lean: the state of one engine instance (spec/10_state.md), its status codes (R230), and how a step can end. -/

namespace Sys2Proof.Machine

/-- The values of `ST`; all four are legal and there is no fifth (R31). -/
inductive EngineState where
  | uninitialized
  | ready
  | active
  | finished
deriving DecidableEq, Repr

/-- The eight status codes by name (R230). -/
inductive Status where
  | ok
  | invalidKeyLength
  | invalidIVLength
  | plaintextTooLong
  | invalidTagLength
  | authenticationFailed
  | illegalSequence
  | illegalCommand
deriving DecidableEq, Repr

/-- One engine instance: the registers of R30 and its two byte streams (R60). -/
structure State where
  /-- `ST`, 2 bits (R31). -/
  st : EngineState
  /-- `KS`, the key schedule, or none (R33). -/
  ks : Option KeySchedule
  /-- `H`, the hash subkey (R32). -/
  h : Block
  /-- `J0`, the initial counter block of the message (R34). -/
  j0 : Block
  /-- `CB`, the running counter block (R35). -/
  cb : Block
  /-- `KSB`, the current keystream block, hidden (R36). -/
  ksb : Block
  /-- `Y`, the GHASH accumulator (R37). -/
  y : Block
  /-- `BUF`, the partial ciphertext block, hidden (R38). -/
  buf : Block
  /-- `AAD_LEN`, bytes of associated data of the message (R39). -/
  aadLen : BitVec 64
  /-- `DATA_LEN`, data bytes processed in the message (R40). -/
  dataLen : BitVec 64
  /-- `CODE`, the status code of the most recent command (R41). -/
  code : BitVec 8
  /-- `CMD`: bytes the host has supplied and the engine has not taken yet (R60, R61). -/
  cmd : Bytes
  /-- `RSP`: bytes the engine has emitted and the host has not read yet (R60, R63). -/
  rsp : Bytes
deriving DecidableEq, Repr

/-- Why an instance has no step. Neither reason is an error of the engine: nothing changes and more bytes from the host end
the wait (R73). DESIGN CHOICE (log 3). -/
inductive Fault where
  /-- Raised by `step` when the command stream is empty: the engine waits for the first byte of a packet (R260). Safe. -/
  | waitingForPacket
  /-- Raised by `step` when the host has supplied only part of a packet: stuck until the rest arrives or reset (R73). Safe. -/
  | truncatedPacket
deriving DecidableEq, Repr

/-- Why the model gives an instruction no meaning. No arm of `exec` uses it: every row of the table has its meaning. -/
inductive Refusal where
  /-- Raised by an arm of `exec` for an instruction that has no meaning yet. Safe. -/
  | notModelled (mnemonic : String)
deriving DecidableEq, Repr

/-- Reset: the table of R49; the streams are empty and the engine waits for a packet (R260, R261). -/
def State.reset : State where
  st := .uninitialized
  ks := none
  h := 0
  j0 := 0
  cb := 0
  ksb := 0
  y := 0
  buf := 0
  aadLen := 0
  dataLen := 0
  code := 0
  cmd := []
  rsp := []

end Sys2Proof.Machine
end

