-- ==== Sys2Proof/Machine/Flags.lean ====
section
/-! DEFINITION. Sys2Proof/Machine/Flags.lean: there are no condition flags (R43). In their place: the status codes, the STATUS
register, the response packet, and every check a command makes before it acts (R190, R230 to R239). -/

namespace Sys2Proof.Machine

/-- The 8-bit number of a status (R230). -/
def Status.number : Status → BitVec 8
  | .ok => 0
  | .invalidKeyLength => 1
  | .invalidIVLength => 2
  | .plaintextTooLong => 3
  | .invalidTagLength => 4
  | .authenticationFailed => 5
  | .illegalSequence => 6
  | .illegalCommand => 7

/-- The 2-bit encoding of `ST` (R31). -/
def EngineState.bits : EngineState → BitVec 2
  | .uninitialized => 0
  | .ready => 1
  | .active => 2
  | .finished => 3

/-- The control register `STATUS = {CODE[7:0], ST[1:0]}` (R41). -/
def State.statusRegister (s : State) : BitVec 10 := s.code ++ s.st.bits

/-- R0 of a response: `CODE` in bits 63:56, `ST` in bits 55:54, zero below (R89). -/
def responseWord0 (code : BitVec 8) (st : EngineState) : BitVec 64 := code ++ st.bits ++ (0 : BitVec 54)

/-- R1 of a response: `OUT_LEN` in bits 60:0, zero above (R89). -/
def responseWord1 (outLen : Nat) : BitVec 64 := (0 : BitVec 3) ++ BitVec.ofNat 61 outLen

/-- A response packet `R0 ++ R1 ++ out`, the words big-endian (R65, R89). -/
def responsePacket (code : BitVec 8) (st : EngineState) (out : Bytes) : Bytes :=
  toBytesBE 8 (responseWord0 code st) ++ toBytesBE 8 (responseWord1 out.length) ++ out

/-- The states INIT is accepted in (R190). -/
def initAccepts : EngineState → Bool
  | .uninitialized => true
  | .ready => true
  | .active => false
  | .finished => false

/-- The states START is accepted in (R190). -/
def startAccepts : EngineState → Bool
  | .uninitialized => false
  | .ready => true
  | .active => false
  | .finished => true

/-- The states UPDATE is accepted in (R190). -/
def updateAccepts : EngineState → Bool
  | .uninitialized => false
  | .ready => false
  | .active => true
  | .finished => false

/-- The states FINISH is accepted in (R190). -/
def finishAccepts : EngineState → Bool
  | .uninitialized => false
  | .ready => false
  | .active => true
  | .finished => false

/-- `MAX_DATA_BLOCKS = 2^32 - 2` (R11). -/
def maxDataBlocks : Nat := 2 ^ 32 - 2

/-- `MAX_DATA_BYTES = 16 * MAX_DATA_BLOCKS` (R11). -/
def maxDataBytes : Nat := 16 * maxDataBlocks

/-- The data bound of UPDATE; the sum is formed without wrap (R233). -/
def dataFits (dataLen : BitVec 64) (chunk : Bytes) : Bool := decide (dataLen.toNat + chunk.length ≤ maxDataBytes)

/-- `taglen_ok(t)` (R178). -/
def taglenOk (t : Nat) : Bool := decide (t % 8 = 0) && decide (32 ≤ t) && decide (t ≤ 128)

/-- The expected tag of FINISH.D, where one is given, has the length the command names (R197, R234). -/
def givenTagFits (taglen : BitVec 8) (given : Option Nat) : Bool :=
  match given with
  | none => true
  | some n => decide (n = taglen.toNat / 8)

end Sys2Proof.Machine
end

