-- ==== Sys2Proof/Machine/Ops.lean ====
section
/-! DEFINITION. Sys2Proof/Machine/Ops.lean: the shared operations on the state of one instance: answering a command, raising an
error (which stands for taking an exception, R243), and zeroing registers. There is no return from an error (R244). -/

namespace Sys2Proof.Machine

/-- The end of every command: `CODE` is written with the status and one response packet is emitted with `CODE`, the new `ST`
and the output (R63, R89, R191 (7)). -/
def respond (status : Status) (out : Bytes) (s : State) : State :=
  { s with code := status.number, rsp := s.rsp ++ responsePacket status.number s.st out }

/-- A command that succeeds with the output given (R230: OK). -/
def succeed (out : Bytes) (s : State) : State := respond .ok out s

/-- Zeroing the per-message registers (R48, R192, R197). -/
def clearMessage (s : State) : State :=
  { s with j0 := 0, cb := 0, ksb := 0, y := 0, buf := 0, aadLen := 0, dataLen := 0 }

/-- Every register except `CODE` at its reset value; the streams are left alone (R231). -/
def resetRegisters (s : State) : State :=
  { s with st := .uninitialized, ks := none, h := 0, j0 := 0, cb := 0, ksb := 0, y := 0, buf := 0, aadLen := 0, dataLen := 0 }

/-- The effect of an error on the state: none, but for InvalidKeyLength (R231) and AuthenticationFailed (R235), see R236. -/
def errorEffect (e : Status) (s : State) : State :=
  match e with
  | .invalidKeyLength => resetRegisters s
  | .authenticationFailed => { clearMessage s with st := .finished }
  | .ok => s
  | .invalidIVLength => s
  | .plaintextTooLong => s
  | .invalidTagLength => s
  | .illegalSequence => s
  | .illegalCommand => s

/-- `raise <Error>`: the error's effect, its code in `CODE`, a response with no output (R236). Nothing is saved and nothing is
vectored (R243); the next packet is taken as usual. -/
def raise (e : Status) (s : State) : State := respond e [] (errorEffect e s)

/-- A packet that is not well-formed: consumed whole, `rest` being the stream after it, and answered with IllegalCommand (R87, R238). -/
def illegalPacket (rest : Bytes) (s : State) : State := raise .illegalCommand { s with cmd := rest }

/-- Taking a whole packet off the command stream (R61). -/
def takePacket (rest : Bytes) (s : State) : State := { s with cmd := rest }

end Sys2Proof.Machine
end

