-- ==== Sys2Proof/Machine/Ctr.lean ====
section
/-! DEFINITION. Sys2Proof/Machine/Ctr.lean: unit ctr_keystream_generator, the counter block and the cipher port
(spec/42_ctr_keystream.md). -/

namespace Sys2Proof.Machine

/-- `KeySetup(key)`: it decides on the key's length alone (R10); none stands for Invalid. -/
def keySetup (c : Cipher) (key : Bytes) : Option KeySchedule :=
  if key.length ∈ c.keySizes then some (c.expandKey key) else none

/-- The cipher port: `E(KS, block)` (R150, R152). With `KS = none`, which no rule reads (R33), a free value (log 2). -/
def encrypt (c : Cipher) (ks : Option KeySchedule) (b : Block) : Block :=
  match ks with
  | some k => c.encryptBlock k b
  | none => c.unboundBlock b

/-- `inc32(C)`: the low 32 bits plus one modulo 2^32, the upper 96 bits copied (R151). -/
def inc32 (b : Block) : Block := b.extractLsb' 32 96 ++ (b.extractLsb' 0 32 + 1)

/-- `load(J)` (R153). -/
def loadCounter (j : Block) (s : State) : State := { s with cb := j, ksb := 0 }

/-- `next`: the counter steps, then the cipher gives the keystream block of the new counter (R154). -/
def nextKeystream (c : Cipher) (s : State) : State :=
  { s with cb := inc32 s.cb, ksb := encrypt c s.ks (inc32 s.cb) }

/-- The keystream byte at message offset `k` for the initial counter block `j` (R156): data block `i >= 1` uses
`E(KS, inc32^i(J0))`. -/
def keystreamByte (c : Cipher) (ks : Option KeySchedule) (j : Block) (k : Nat) : Byte :=
  getByte (encrypt c ks (inc32^[k / 16 + 1] j)) (k % 16)

end Sys2Proof.Machine
end

