-- ==== Sys2Proof/Machine/Gf128.lean ====
section
/-! DEFINITION. Sys2Proof/Machine/Gf128.lean: unit ghash_multiplier, the product in GF(2^128) (spec/40_gf128_multiplier.md). -/

namespace Sys2Proof.Machine

/-- The reduction constant `R` (R111). -/
def gfR : Block := 0xE1000000000000000000000000000000

/-- `mulx(V)`: multiplication by `x` (R115). -/
def mulx (v : Block) : Block := if v.getLsbD 0 then (v >>> 1) ^^^ gfR else v >>> 1

/-- The last `n` steps of the loop of R112, those for `i = 128 - n` to `127`, from the values `z` and `v`. -/
def gfMulLoop (x : Block) : Nat → Block → Block → Block
  | 0, z, _ => z
  | n + 1, z, v => gfMulLoop x n (if gbit x (127 - n) then z ^^^ v else z) (mulx v)

/-- `gf_mul(X, Y)` (R112). -/
def gfMul (x y : Block) : Block := gfMulLoop x 128 0 y

end Sys2Proof.Machine
end

