-- ==== Sys2Proof/Machine/Ghash.lean ====
section
/-! DEFINITION. Sys2Proof/Machine/Ghash.lean: unit ghash_accumulator, the streaming GHASH fold over `Y` and `BUF`
(spec/41_ghash_accumulator.md). -/

namespace Sys2Proof.Machine

/-- `fold(Yin, B, H)` (R131). -/
def foldBlock (y b h : Block) : Block := gfMul (y ^^^ b) h

/-- `absorb(Yin, b, H)`: the fold of a whole byte string, zero-padded on the right (R132). -/
def absorb (y : Block) (b : Bytes) (h : Block) : Block :=
  (blocks (pad16 b)).foldl (fun acc x => foldBlock acc x h) y

/-- `clear`: `Y` and `BUF` zero (R133). -/
def clearHash (s : State) : State := { s with y := 0, buf := 0 }

/-- `absorb_byte(c, p)`: one ciphertext byte into the partial block; a block is folded when its sixteenth byte arrives (R134). -/
def absorbByte (c : Byte) (p : Nat) (s : State) : State :=
  let b := setByte s.buf p c
  if p = 15 then { s with y := foldBlock s.y b s.h, buf := 0 } else { s with buf := b }

/-- `flush(p)`: the fold of the final partial block, if there is one (R135). -/
def flush (p : Nat) (s : State) : State :=
  if p = 0 then s else { s with y := foldBlock s.y s.buf s.h, buf := 0 }

/-- `len_block(a, c)` for `a` bytes of associated data and `c` data bytes (R136). -/
def lenBlock (a c : Nat) : Block := blk (be64 (8 * a) ++ be64 (8 * c))

/-- The final hash of FINISH: the partial block, then the length block (R175). -/
def finalHash (s : State) : State :=
  let s1 := flush (s.dataLen.toNat % 16) s
  { s1 with y := foldBlock s1.y (lenBlock s1.aadLen.toNat s1.dataLen.toNat) s1.h }

end Sys2Proof.Machine
end

