-- ==== Sys2Proof/Machine/Tag.lean ====
section
/-! DEFINITION. Sys2Proof/Machine/Tag.lean: unit gcm_tag_derivation (spec/43_tag_derivation.md). -/

namespace Sys2Proof.Machine

/-- `ivlen_block(n)` for an IV of `n` bytes (R173). -/
def ivlenBlock (n : Nat) : Block := blk (zeros 8 ++ be64 (8 * n))

/-- `derive_j0(H, iv)`: concatenation for a 12-byte IV, GHASH for every other length (R171, R172, R174). -/
def deriveJ0 (h : Block) (iv : Bytes) : Block :=
  if iv.length = 12 then blk (iv ++ be32 1)
  else foldBlock (absorb 0 iv h) (ivlenBlock iv.length) h

/-- `T = S xor E(KS, J0)` (R176). -/
def maskTag (c : Cipher) (ks : Option KeySchedule) (j hash : Block) : Block := hash ^^^ encrypt c ks j

/-- `msb(T, t)`: the first `t / 8` bytes of the tag (R177). -/
def msb (tag : Block) (t : Nat) : Bytes := (bytes16 tag).take (t / 8)

/-- `ct_eq(a, b)` for two strings of one length: every byte takes part (R179). -/
def ctEq (a b : Bytes) : Bool := (List.zipWith (· ^^^ ·) a b).foldl (· ||| ·) 0 == (0 : Byte)

end Sys2Proof.Machine
end

