-- ==== Sys2Proof/Machine/Finish.lean ====
section
/-! DEFINITION. Sys2Proof/Machine/Finish.lean: FINISH.E and FINISH.D (R197 to R199). -/

namespace Sys2Proof.Machine

/-- The three checks of `finish_core`, in order; none when they pass (R197, R239). `given` is the expected tag's length. -/
def finishCheck (taglen : BitVec 8) (given : Option Nat) (s : State) : Option Status :=
  if finishAccepts s.st then
    if taglenOk taglen.toNat then
      if givenTagFits taglen given then none else some .invalidTagLength
    else some .invalidTagLength
  else some .illegalSequence

/-- The effect of `finish_core` past its checks, for a cipher `c`: the state after it, and the truncated tag (R175 to R177, R197). -/
def finishEffect (c : Cipher) (taglen : BitVec 8) (s : State) : State × Bytes :=
  let s1 := finalHash s
  let t := maskTag c s1.ks s1.j0 s1.y
  ({ clearMessage s1 with st := .finished }, msb t taglen.toNat)

/-- FINISH.E for a cipher `c` (R198). -/
def finishECommand (c : Cipher) (taglen : BitVec 8) (s : State) : State :=
  match finishCheck taglen none s with
  | some e => raise e s
  | none =>
    let r := finishEffect c taglen s
    succeed r.2 r.1

/-- FINISH.D for a cipher `c`: no output in either verdict (R199, R235). -/
def finishDCommand (c : Cipher) (taglen : BitVec 8) (tag : Bytes) (s : State) : State :=
  match finishCheck taglen (some tag.length) s with
  | some e => raise e s
  | none =>
    let r := finishEffect c taglen s
    if ctEq r.2 tag then succeed [] r.1 else raise .authenticationFailed r.1

/-- `FINISH.E taglen` (R198). -/
def execFinishE (taglen : BitVec 8) (s : State) : Host.Outcome State Fault Refusal :=
  .next (finishECommand Config.cipher taglen s)

/-- `FINISH.D taglen, tag` (R199). -/
def execFinishD (taglen : BitVec 8) (tag : Bytes) (s : State) : Host.Outcome State Fault Refusal :=
  .next (finishDCommand Config.cipher taglen tag s)

end Sys2Proof.Machine
end

