-- ==== Sys2Proof/Machine/Init.lean ====
section
/-! DEFINITION. Sys2Proof/Machine/Init.lean: INIT (R192). -/

namespace Sys2Proof.Machine

/-- INIT for a cipher `c` (R192, R231). -/
def initCommand (c : Cipher) (key : Bytes) (s : State) : State :=
  if initAccepts s.st then
    match keySetup c key with
    | none => raise .invalidKeyLength s
    | some ks => succeed [] { clearMessage s with ks := some ks, h := encrypt c (some ks) 0, st := .ready }
  else raise .illegalSequence s

/-- `INIT key` (R192). -/
def execInit (key : Bytes) (s : State) : Host.Outcome State Fault Refusal :=
  .next (initCommand Config.cipher key s)

end Sys2Proof.Machine
end

