-- ==== Sys2Proof/Machine/Start.lean ====
section
/-! DEFINITION. Sys2Proof/Machine/Start.lean: START (R193). It makes no cipher call (R159). -/

namespace Sys2Proof.Machine

/-- The effect of an accepted START: `load`, `clear`, the fold of the associated data, the counters (R193). -/
def startEffect (iv aad : Bytes) (s : State) : State :=
  let j := deriveJ0 s.h iv
  let s1 := clearHash (loadCounter j { s with j0 := j })
  { s1 with y := absorb 0 aad s1.h, aadLen := BitVec.ofNat 64 aad.length, dataLen := 0, st := .active }

/-- `START iv, aad` (R193, R232). -/
def startCommand (iv aad : Bytes) (s : State) : State :=
  if startAccepts s.st then
    if iv.length = 0 then raise .invalidIVLength s else succeed [] (startEffect iv aad s)
  else raise .illegalSequence s

/-- `START iv, aad` (R193). -/
def execStart (iv aad : Bytes) (s : State) : Host.Outcome State Fault Refusal :=
  .next (startCommand iv aad s)

end Sys2Proof.Machine
end

