-- ==== Sys2Proof/Machine/Update.lean ====
section
/-! DEFINITION. Sys2Proof/Machine/Update.lean: UPDATE.E and UPDATE.D, byte by byte (R194 to R196). -/

namespace Sys2Proof.Machine

/-- The byte that is authenticated: always the ciphertext, the output of an encrypted byte and the input of a decrypted one
(R141, R194). -/
def cipherByte (dir : Dir) (input output : Byte) : Byte :=
  match dir with
  | .enc => output
  | .dec => input

/-- One turn of the loop of R194: the state after the byte `b`, and the output byte. -/
def updateByte (c : Cipher) (dir : Dir) (b : Byte) (s : State) : State × Byte :=
  let p := s.dataLen.toNat % 16
  let s1 := if p = 0 then nextKeystream c s else s
  let o := b ^^^ getByte s1.ksb p
  let s2 := absorbByte (cipherByte dir b o) p s1
  ({ s2 with dataLen := s2.dataLen + 1 }, o)

/-- The loop of R194 over a chunk: the state after it and the output bytes in order. -/
def updateLoop (c : Cipher) (dir : Dir) : Bytes → State → State × Bytes
  | [], s => (s, [])
  | b :: bs, s =>
    let r := updateByte c dir b s
    let q := updateLoop c dir bs r.1
    (q.1, r.2 :: q.2)

/-- `update_bytes(dir, chunk)` for a cipher `c` (R194, R233). -/
def updateCommand (c : Cipher) (dir : Dir) (chunk : Bytes) (s : State) : State :=
  if updateAccepts s.st then
    if dataFits s.dataLen chunk then
      let r := updateLoop c dir chunk s
      succeed r.2 r.1
    else raise .plaintextTooLong s
  else raise .illegalSequence s

/-- `UPDATE.E chunk` (R195). -/
def execUpdateE (chunk : Bytes) (s : State) : Host.Outcome State Fault Refusal :=
  .next (updateCommand Config.cipher .enc chunk s)

/-- `UPDATE.D chunk` (R196). -/
def execUpdateD (chunk : Bytes) (s : State) : Host.Outcome State Fault Refusal :=
  .next (updateCommand Config.cipher .dec chunk s)

end Sys2Proof.Machine
end

