-- ==== Sys2Proof/Machine/Dispatch.lean ====
section
/-! DEFINITION. Sys2Proof/Machine/Dispatch.lean: one arm per command (R191). -/

namespace Sys2Proof.Machine

def exec (i : Instr) (s : State) : Host.Outcome State Fault Refusal :=
  match i with
  | .init key => Sys2Proof.Machine.execInit key s
  | .start iv aad => Sys2Proof.Machine.execStart iv aad s
  | .updateE chunk => Sys2Proof.Machine.execUpdateE chunk s
  | .updateD chunk => Sys2Proof.Machine.execUpdateD chunk s
  | .finishE taglen => Sys2Proof.Machine.execFinishE taglen s
  | .finishD taglen tag => Sys2Proof.Machine.execFinishD taglen tag s

end Sys2Proof.Machine
end

