-- ==== Sys2Proof/Machine/Step.lean ====
section
/-! DEFINITION. Sys2Proof/Machine/Step.lean: one step of an instance: one whole packet is taken, its command executed, one response
emitted (R61, R191). -/

namespace Sys2Proof.Machine

/-- One step. With no whole packet at hand there is none: the engine waits (R73; log 3). -/
def step (s : State) : Host.Outcome State Fault Refusal :=
  match decode s.cmd with
  | .idle => .fault .waitingForPacket
  | .truncated => .fault .truncatedPacket
  | .illegal _ rest => .next (illegalPacket rest s)
  | .command i rest => exec i (takePacket rest s)

/-- `s` with the packet of an opcode-table word at the head of its command stream, so that the next step takes exactly it. This
stands for the host sending that packet (log 4). -/
def State.withFetchWord (s : State) (nbits w : Nat) : State :=
  { s with cmd := packetOfTableWord nbits w ++ s.cmd }

end Sys2Proof.Machine
end

