-- ==== Sys2Proof/Machine/HostSide.lean ====
section
/-! DEFINITION. Sys2Proof/Machine/HostSide.lean: what the host and the platform do to one instance (R21, R60, R68, R260), how a
response is read (R89), a run (R277), and the host's one-shot sequences ENCRYPT and DECRYPT (R94, R212, R213). -/

namespace Sys2Proof.Machine

/-- The host puts bytes into the command stream; a packet may come in pieces (R61, R73). -/
def hostSend (bytes : Bytes) (s : State) : State := { s with cmd := s.cmd ++ bytes }

/-- The host takes up to `n` bytes off the response stream; no register changes (R68). -/
def hostRead (n : Nat) (s : State) : Bytes × State := (s.rsp.take n, { s with rsp := s.rsp.drop n })

/-- Reset of one instance, at any time: every register at its reset value, a partly received packet dropped, the response
stream empty (R260, R261). What the host has not read before is lost, what it has read was delivered (log 7). -/
def resetInstance (s : State) : State := { resetRegisters s with code := 0, cmd := [], rsp := [] }

/-- A response as the host reads it (R89). -/
structure Response where
  code : BitVec 8
  st : BitVec 2
  out : Bytes
deriving DecidableEq, Repr

/-- The first response packet of a stream and the stream after it; none when no whole packet is there (R89). -/
def readResponse (stream : Bytes) : Option (Response × Bytes) :=
  if stream.length < 16 then none
  else
    let r0 : BitVec 64 := ofBytesBE 64 (stream.take 8)
    let r1 : BitVec 64 := ofBytesBE 64 ((stream.drop 8).take 8)
    let body := stream.drop 16
    let n := (r1.extractLsb' 0 61).toNat
    if body.length < n then none
    else some (⟨r0.extractLsb' 56 8, r0.extractLsb' 54 2, body.take n⟩, body.drop n)

/-- The responses of a stream, at most `fuel` of them (R277). -/
def readResponses : Nat → Bytes → List Response
  | 0, _ => []
  | fuel + 1, stream =>
    match readResponse stream with
    | none => []
    | some (r, rest) => r :: readResponses fuel rest

/-- A run of a list of commands, one after another; it ends with the first that has no next state (R70, R277). -/
def runCommands : List Instr → State → Host.Outcome State Fault Refusal
  | [], s => .next s
  | i :: is, s =>
    match exec i s with
    | .next t => runCommands is t
    | .fault r => .fault r
    | .refused r => .refused r

/-- The packets of a list of commands, one after another, as the host sends them (R61). -/
def packetsOf (cmds : List Instr) : Bytes := (cmds.map encode).flatten

/-- Steps until the engine waits, at most `fuel` of them: a run over what the command stream holds (R277). -/
def runStream : Nat → State → State
  | 0, s => s
  | fuel + 1, s =>
    match step s with
    | .next t => runStream fuel t
    | .fault _ => s
    | .refused _ => s

/-- The fields of one response packet, its length taken as given (R89). -/
def responseOfPacket (packet : Bytes) : Response :=
  let r0 : BitVec 64 := ofBytesBE 64 (packet.take 8)
  ⟨r0.extractLsb' 56 8, r0.extractLsb' 54 2, packet.drop 16⟩

/-- The response a command has just appended: `before` and `after` are the states around it (R70, R89). It is looked at and
not taken off the response stream: DESIGN CHOICE, log 16. -/
def newResponse (before after : State) : Response := responseOfPacket (after.rsp.drop before.rsp.length)

/-- The host issues one command, over `exec`, and reads the response it has just appended; `k` goes on from there. DEDUCED,
log 13. The response stays in the response stream, where the spec is silent: DESIGN CHOICE, log 16. -/
def issue {α : Type} (i : Instr) (s : State) (k : State → Response → Host.Outcome α Fault Refusal) :
    Host.Outcome α Fault Refusal :=
  match exec i s with
  | .fault r => .fault r
  | .refused r => .refused r
  | .next t => k t (newResponse s t)

/-- The result of a one-shot sequence: the state it leaves, and the result or the code of the error (R212, R213). -/
abbrev OneShot (α : Type) := Host.Outcome (State × Except (BitVec 8) α) Fault Refusal

/-- The clean-up of a one-shot sequence: `FINISH.E 128`, its output discarded, then the error's code (R212, R213). -/
def cleanUp {α : Type} (code : BitVec 8) (s : State) : OneShot α :=
  issue (.finishE 128) s fun t _ => .next (t, .error code)

/-- `ENCRYPT iv, aad, plaintext, taglen` (R212). -/
def encryptOneShot (iv aad pt : Bytes) (taglen : BitVec 8) (s : State) : OneShot (Bytes × Bytes) :=
  issue (.start iv aad) s fun s1 r1 =>
    if r1.code ≠ 0 then .next (s1, .error r1.code)
    else
      issue (.updateE pt) s1 fun s2 r2 =>
        if r2.code ≠ 0 then cleanUp r2.code s2
        else
          issue (.finishE taglen) s2 fun s3 r3 =>
            if r3.code ≠ 0 then cleanUp r3.code s3 else .next (s3, .ok (r2.out, r3.out))

/-- `DECRYPT iv, aad, ciphertext, tag, taglen`: the plaintext is held until the tag is verified (R213). What a
failure discards is the result: the responses stay in the response stream (DESIGN CHOICE, log 16). -/
def decryptOneShot (iv aad ct tag : Bytes) (taglen : BitVec 8) (s : State) : OneShot Bytes :=
  if taglenOk taglen.toNat && givenTagFits taglen (some tag.length) then
    issue (.start iv aad) s fun s1 r1 =>
      if r1.code ≠ 0 then .next (s1, .error r1.code)
      else
        issue (.updateD ct) s1 fun s2 r2 =>
          if r2.code ≠ 0 then cleanUp r2.code s2
          else
            issue (.finishD taglen tag) s2 fun s3 r3 =>
              if r3.code ≠ 0 then .next (s3, .error r3.code) else .next (s3, .ok r2.out)
  else .next (s, .error Status.invalidTagLength.number)

end Sys2Proof.Machine
end

