-- ==== Sys2Proof/Machine/Platform.lean ====
section
/-! DEFINITION. Sys2Proof/Machine/Platform.lean: `N_ENGINES` instances side by side (R13, R74, R250). Each has its own streams and its
complete state; nothing is shared. What happens next, and to which instance, is the platform's free choice: an event.
`N_ENGINES` is the argument `n` of every definition here (log 5). -/

namespace Sys2Proof.Machine

/-- The platform: one state per instance (R13). -/
structure Platform (n : Nat) where
  engines : Vector State n
deriving DecidableEq, Repr

/-- Every instance after reset (R260). -/
def Platform.reset (n : Nat) : Platform n where
  engines := Vector.replicate n State.reset

/-- What can happen to one instance (R21, R60, R260). -/
inductive Event where
  /-- The host sends bytes. -/
  | send (bytes : Bytes)
  /-- The engine takes and executes one packet. -/
  | run
  /-- The host reads up to `n` response bytes. -/
  | read (n : Nat)
  /-- The platform resets the instance. -/
  | reset
deriving DecidableEq, Repr

/-- An event at one instance. -/
def engineEvent (e : Event) (s : State) : Host.Outcome State Fault Refusal :=
  match e with
  | .send bytes => .next (hostSend bytes s)
  | .run => step s
  | .read n => .next (hostRead n s).2
  | .reset => .next (resetInstance s)

/-- An event at instance `k` of the platform; no other instance is touched (R74, R250). -/
def Platform.event {n : Nat} (k : Fin n) (e : Event) (p : Platform n) : Host.Outcome (Platform n) Fault Refusal :=
  match engineEvent e p.engines[k] with
  | .next t => .next { p with engines := p.engines.set k t }
  | .fault r => .fault r
  | .refused r => .refused r

end Sys2Proof.Machine
end

