-- ==== Sys2Proof/Machine/Requests.lean ====
section
/-! DEFINITION. Sys2Proof/Machine/Requests.lean: the blocks a command presents to the cipher (R159, for a model that counts them). -/

namespace Sys2Proof.Machine

/-- The counter blocks an UPDATE asks the cipher for: one per data block begun, `off` being the message offset of the first
byte and `cb` the counter block (R154, R159). -/
def updateRequests : Bytes → Nat → Block → List Block
  | [], _, _ => []
  | _ :: bs, off, cb =>
    if off % 16 = 0 then inc32 cb :: updateRequests bs (off + 1) (inc32 cb) else updateRequests bs (off + 1) cb

/-- The cipher requests of a command; none for a rejected one (R159). -/
def cipherRequests (c : Cipher) (i : Instr) (s : State) : List Block :=
  match i with
  | .init key => if initAccepts s.st && (keySetup c key).isSome then [0] else []
  | .start _ _ => []
  | .updateE chunk =>
    if updateAccepts s.st && dataFits s.dataLen chunk then updateRequests chunk s.dataLen.toNat s.cb else []
  | .updateD chunk =>
    if updateAccepts s.st && dataFits s.dataLen chunk then updateRequests chunk s.dataLen.toNat s.cb else []
  | .finishE taglen => if (finishCheck taglen none s).isNone then [s.j0] else []
  | .finishD taglen tag => if (finishCheck taglen (some tag.length) s).isNone then [s.j0] else []

/-- The key schedule a command hands to the cipher: INIT the new one, every other command `KS` (R159, R192). -/
def requestKey (c : Cipher) (i : Instr) (s : State) : Option KeySchedule :=
  match i with
  | .init key => keySetup c key
  | .start _ _ => s.ks
  | .updateE _ => s.ks
  | .updateD _ => s.ks
  | .finishE _ => s.ks
  | .finishD _ _ => s.ks

/-- The state after a command, for any cipher `c`; `exec` is this for the cipher of Config (R10, R191). -/
def commandFor (c : Cipher) (i : Instr) (s : State) : State :=
  match i with
  | .init key => initCommand c key s
  | .start iv aad => startCommand iv aad s
  | .updateE chunk => updateCommand c .enc chunk s
  | .updateD chunk => updateCommand c .dec chunk s
  | .finishE taglen => finishECommand c taglen s
  | .finishD taglen tag => finishDCommand c taglen tag s

end Sys2Proof.Machine
end

