-- ==== Sys2Proof/Machine/Gcm.lean ====
section
/-! DEFINITION. Sys2Proof/Machine/Gcm.lean: the whole computation as functions (R138, R182). No command calls these: they are what the
command sequences are held against (R203). -/

namespace Sys2Proof.Machine

/-- `ghash_msg(H, A, C)` (R138). -/
def ghashMsg (h : Block) (aad ct : Bytes) : Block :=
  foldBlock (absorb (absorb 0 aad h) ct h) (lenBlock aad.length ct.length) h

/-- A string xored with the keystream from message offset `off` on. -/
def ctrFrom (c : Cipher) (ks : Option KeySchedule) (j : Block) : Nat → Bytes → Bytes
  | _, [] => []
  | off, b :: bs => (b ^^^ keystreamByte c ks j off) :: ctrFrom c ks j (off + 1) bs

/-- `ctr(C, J0, KS)` (R182). -/
def ctr (c : Cipher) (ks : Option KeySchedule) (j : Block) (data : Bytes) : Bytes := ctrFrom c ks j 0 data

/-- The hash subkey of a key schedule, `H = E(KS, 0)` (R32, R182). -/
def hashSubkey (c : Cipher) (ks : Option KeySchedule) : Block := encrypt c ks 0

/-- The truncated tag of a message (R138, R176, R177, R182). -/
def gcmTag (c : Cipher) (ks : Option KeySchedule) (iv aad ct : Bytes) (t : Nat) : Bytes :=
  let h := hashSubkey c ks
  msb (maskTag c ks (deriveJ0 h iv) (ghashMsg h aad ct)) t

/-- `gcm_encrypt(KS, iv, aad, pt, t)` (R182). -/
def gcmEncrypt (c : Cipher) (ks : Option KeySchedule) (iv aad pt : Bytes) (t : Nat) : Bytes × Bytes :=
  let ct := ctr c ks (deriveJ0 (hashSubkey c ks) iv) pt
  (ct, gcmTag c ks iv aad ct t)

/-- `gcm_decrypt(KS, iv, aad, ct, tag, t)`; none stands for AuthenticationFailed (R182). -/
def gcmDecrypt (c : Cipher) (ks : Option KeySchedule) (iv aad ct tag : Bytes) (t : Nat) : Option Bytes :=
  if ctEq (gcmTag c ks iv aad ct t) tag then some (ctr c ks (deriveJ0 (hashSubkey c ks) iv) ct) else none

end Sys2Proof.Machine
end

