-- ==== Sys2Proof/Safety.lean ====
section
/-! DEFINITION. Sys2Proof/Safety.lean: what holds of an instance between commands (R47), in the terms claims use. -/

namespace Sys2Proof

open Sys2Proof.Machine

/-- The per-message registers are zero (R47 (a), (b), R48). -/
def MessageZero (s : State) : Prop :=
  s.j0 = 0 ∧ s.cb = 0 ∧ s.ksb = 0 ∧ s.y = 0 ∧ s.buf = 0 ∧ s.aadLen = 0 ∧ s.dataLen = 0

/-- A key is bound and `H` is its hash subkey (R47 (b), (c)). -/
def KeyBound (c : Cipher) (s : State) : Prop :=
  s.ks ≠ none ∧ s.h = hashSubkey c s.ks

/-- The number of data blocks begun: `ceil(n / 16)` (R47 (c)). -/
def blocksBegun (n : Nat) : Nat := (n + 15) / 16

/-- The registers of a message in progress (R47 (c)). -/
def MessageActive (c : Cipher) (s : State) : Prop :=
  s.aadLen.toNat < 2 ^ 61 ∧
  s.dataLen.toNat ≤ maxDataBytes ∧
  s.cb = inc32^[blocksBegun s.dataLen.toNat] s.j0 ∧
  s.ksb = (if blocksBegun s.dataLen.toNat = 0 then 0 else encrypt c s.ks s.cb) ∧
  (∀ q, s.dataLen.toNat % 16 ≤ q → q < 16 → getByte s.buf q = 0) ∧
  (s.dataLen.toNat % 16 = 0 → s.buf = 0)

/-- The invariant of R47 for a cipher `c`, clause by clause. -/
def EngineInv (c : Cipher) (s : State) : Prop :=
  match s.st with
  | .uninitialized => s.ks = none ∧ s.h = 0 ∧ MessageZero s
  | .ready => KeyBound c s ∧ MessageZero s
  | .active => KeyBound c s ∧ MessageActive c s
  | .finished => KeyBound c s ∧ MessageZero s

/-- The message registers agree with a message so far: associated data `aad` under the IV `iv`, of which the ciphertext
bytes `ct` have been processed: the whole blocks are folded, the rest stands in `BUF` (R38, R137, R138, R193, R194). -/
def MessageSoFar (iv aad ct : Bytes) (s : State) : Prop :=
  s.st = .active ∧
  s.j0 = deriveJ0 s.h iv ∧
  s.aadLen = BitVec.ofNat 64 aad.length ∧
  s.dataLen = BitVec.ofNat 64 ct.length ∧
  s.y = absorb (absorb 0 aad s.h) (ct.take (16 * (ct.length / 16))) s.h ∧
  s.buf = blk (ct.drop (16 * (ct.length / 16)) ++ zeros (16 - ct.length % 16))

/-- The descriptors that are well-formed, clause by clause from R85 with the bit positions of R81. -/
def DescriptorWf (d : Descriptor) : Prop :=
  (d.extractLsb 186 184 = 0 ∧ d.extractLsb 175 128 = 0 ∧ d.extractLsb 127 125 = 0 ∧ d.extractLsb 63 61 = 0) ∧
  (d.extractLsb 191 188 = 1 ∨ d.extractLsb 191 188 = 2 ∨ d.extractLsb 191 188 = 3 ∨ d.extractLsb 191 188 = 4) ∧
  (d.extractLsb 191 188 = 1 → d.extractLsb 187 187 = 0 ∧ d.extractLsb 183 176 = 0 ∧ d.extractLsb 60 0 = 0) ∧
  (d.extractLsb 191 188 = 2 → d.extractLsb 187 187 = 0 ∧ d.extractLsb 183 176 = 0) ∧
  (d.extractLsb 191 188 = 3 → d.extractLsb 183 176 = 0 ∧ d.extractLsb 60 0 = 0) ∧
  (d.extractLsb 191 188 = 4 → d.extractLsb 60 0 = 0 ∧ (d.extractLsb 187 187 = 0 → d.extractLsb 124 64 = 0))

/-- `poly(v)`, the polynomial over GF(2) a block stands for (R110). -/
noncomputable def poly (v : Block) : Polynomial (ZMod 2) :=
  ∑ i ∈ Finset.range 128, if gbit v i then Polynomial.X ^ i else 0

/-- `P = x^128 + x^7 + x^2 + x + 1`, the reduction polynomial (R110). -/
noncomputable def gfPolynomial : Polynomial (ZMod 2) :=
  Polynomial.X ^ 128 + Polynomial.X ^ 7 + Polynomial.X ^ 2 + Polynomial.X + 1

/-- `ONE`, the polynomial 1 (R114). -/
def gfOne : Block := 0x80000000000000000000000000000000

/-- Powers in the field (R140). -/
def gfPow (h : Block) : Nat → Block
  | 0 => gfOne
  | n + 1 => gfMul (gfPow h n) h

/-- `X_1 * H^m xor X_2 * H^(m-1) xor ... xor X_m * H` for the blocks `X_1 .. X_m` (R140). -/
def ghashSum (h : Block) : List Block → Block
  | [] => 0
  | x :: xs => gfMul x (gfPow h (xs.length + 1)) ^^^ ghashSum h xs

/-- A byte string with bit `b` of byte `k` flipped (R205). -/
def flipBit (data : Bytes) (k b : Nat) : Bytes := data.modify k fun x => x ^^^ ((1 : Byte) <<< b)

/-- Two ciphers that answer alike for one key schedule on the blocks given (R159). -/
def AgreeOn (c c' : Cipher) (ks : Option KeySchedule) (requests : List Block) : Prop :=
  ∀ b ∈ requests, encrypt c ks b = encrypt c' ks b

/-- The state but for its two streams: what a host cannot tell apart by the position in its streams (R206). -/
def SameRegisters (s t : State) : Prop :=
  { s with cmd := [], rsp := [] } = { t with cmd := [], rsp := [] }

end Sys2Proof
end

