-- ==== Sys2Proof/Certificates/Slice0/Obligations.lean ====
section
/-! DEFINITION. Sys2Proof/Certificates/Slice0/Obligations.lean: the statements for the provers, from the numbered rules of spec/. -/

open Sys2Proof Sys2Proof.Machine

/-! ## Encoding -/

/-- R92: the packet of every well-formed command, at the head of any stream, decodes to that command and leaves the rest. -/
def Obligations.DecodeOfEncodeIsTheCommand : Prop :=
  ∀ (i : Instr) (rest : Bytes), i.wf = true → decode (encode i ++ rest) = .command i rest

/-- R92: a stream whose head decodes to a command begins with that command's one packet, and the command is well-formed. -/
def Obligations.DecodedStreamBeginsWithItsPacket : Prop :=
  ∀ (stream rest : Bytes) (i : Instr), decode stream = .command i rest → i.wf = true ∧ stream = encode i ++ rest

/-- R85, R92: whether a descriptor is well-formed is decided by its fields alone, by the clauses of R85. -/
def Obligations.DescriptorAcceptedExactlyWhenWellFormed : Prop :=
  ∀ (d : Descriptor) (opA opB : Bytes), (∃ i, decodeDescriptor d opA opB = .ok i) ↔ DescriptorWf d

/-- R83, R87: a packet whose descriptor is not well-formed is consumed whole by one step, answered with IllegalCommand and no
output, and changes nothing but `CODE`. -/
def Obligations.IllegalPacketIsConsumedWhole : Prop :=
  ∀ (s : State) (d : Descriptor) (opA opB rest : Bytes),
    ¬ DescriptorWf d → opA.length = (d.extractLsb 124 64).toNat → opB.length = (d.extractLsb 60 0).toNat →
    s.cmd = toBytesBE 24 d ++ opA ++ opB ++ rest →
    step s = .next { s with cmd := rest, code := 7, rsp := s.rsp ++ responsePacket 7 s.st [] }

/-- R84, R86, V7: words written out from the descriptor's layout decode to the commands they stand for. -/
def Obligations.TableWordsDecodeToTheirCommands : Prop :=
  decodeTableWord 192 0x100000000000000000000000000000020000000000000000 = some (.init [0, 0]) ∧
  decodeTableWord 192 0x200000000000000000000000000000010000000000000002 = some (.start [0] [0, 0]) ∧
  decodeTableWord 192 0x300000000000000000000000000000010000000000000000 = some (.updateE [0]) ∧
  decodeTableWord 192 0x380000000000000000000000000000000000000000000000 = some (.updateD []) ∧
  decodeTableWord 192 0x406000000000000000000000000000000000000000000000 = some (.finishE 96) ∧
  decodeTableWord 192 0x482000000000000000000000000000040000000000000000 = some (.finishD 32 [0, 0, 0, 0])

/-- R89: a response packet gives back its code, its state and its output, and the stream goes on after it. -/
def Obligations.ResponsePacketReadsBack : Prop :=
  ∀ (code : BitVec 8) (st : EngineState) (out rest : Bytes), out.length < 2 ^ 61 →
    readResponse (responsePacket code st out ++ rest) = some (⟨code, st.bits, out⟩, rest)

/-- R91: the examples of R0. -/
def Obligations.ResponseWordExamples : Prop :=
  (responsePacket 0 .ready []).take 8 = [0x00, 0x40, 0, 0, 0, 0, 0, 0] ∧
  (responsePacket 0 .active []).take 8 = [0x00, 0x80, 0, 0, 0, 0, 0, 0] ∧
  (responsePacket 0 .finished []).take 8 = [0x00, 0xc0, 0, 0, 0, 0, 0, 0] ∧
  (responsePacket 5 .finished []).take 8 = [0x05, 0xc0, 0, 0, 0, 0, 0, 0] ∧
  (responsePacket 6 .ready []).take 8 = [0x06, 0x40, 0, 0, 0, 0, 0, 0]

/-! ## Steps and runs -/

/-- R61, R191: with a packet of a well-formed command at the head of the command stream, a step takes the packet off the
stream and is `exec` of that command. -/
def Obligations.StepRunsTheDecodedCommand : Prop :=
  ∀ (s : State) (i : Instr) (rest : Bytes), i.wf = true → s.cmd = encode i ++ rest →
    step s = exec i { s with cmd := rest }

/-- R73: a stream that is a proper part of a packet, well-formed or not, gives no step. `n` is how many bytes of it are there;
how the absence of a step is named is the model's choice (log 3). -/
def Obligations.NoStepOnATruncatedPacket : Prop :=
  ∀ (s : State) (d : Descriptor) (opA opB : Bytes) (n : Nat),
    opA.length = (d.extractLsb 124 64).toNat → opB.length = (d.extractLsb 60 0).toNat →
    n < 24 + opA.length + opB.length → s.cmd = (toBytesBE 24 d ++ opA ++ opB).take n →
    step s = .fault (if n = 0 then .waitingForPacket else .truncatedPacket)

/-- R61, R70: the packets of a list of commands, sent one after another, are executed in that order, one by one. -/
def Obligations.StreamRunsCommandsInOrder : Prop :=
  ∀ (cmds : List Instr) (s : State), (∀ i ∈ cmds, i.wf = true) →
    runCommands cmds s = .next (runStream cmds.length { s with cmd := packetsOf cmds ++ s.cmd })

/-- R89, R90, R230, R236: a step emits exactly one response packet, with the new `CODE` (one of the eight) and the new `ST`,
and with no output when the code is not 0. -/
def Obligations.EveryStepEmitsOneResponse : Prop :=
  ∀ (s t : State), step s = .next t →
    t.code.toNat ≤ 7 ∧ ∃ out : Bytes, t.rsp = s.rsp ++ responsePacket t.code t.st out ∧ (t.code ≠ 0 → out = [])

/-- R90: the output length of every command: as R90 lists for one that succeeds, and 0 for one that is rejected. -/
def Obligations.OutputLengthOfEveryCommand : Prop :=
  ∀ (i : Instr) (s t : State), exec i s = .next t →
    ∃ out : Bytes, t.rsp = s.rsp ++ responsePacket t.code t.st out ∧
      (t.code ≠ 0 → out.length = 0) ∧
      (t.code = 0 → out.length = match i with
        | .init _ => 0
        | .start _ _ => 0
        | .updateE chunk => chunk.length
        | .updateD chunk => chunk.length
        | .finishE taglen => taglen.toNat / 8
        | .finishD _ _ => 0)

/-- R236, R240: a command rejected with any code but InvalidKeyLength and AuthenticationFailed changes `CODE` and nothing else;
its response has no output. -/
def Obligations.RejectedCommandChangesOnlyCode : Prop :=
  ∀ (i : Instr) (s t : State), exec i s = .next t → t.code ≠ 0 → t.code ≠ 1 → t.code ≠ 5 →
    t = { s with code := t.code, rsp := s.rsp ++ responsePacket t.code s.st [] }

/-- R190, R237: a command issued in a state that R190 does not list for it is rejected with IllegalSequence. -/
def Obligations.CommandOutOfSequenceIsRejected : Prop :=
  ∀ (i : Instr) (s : State),
    (match i with
      | .init _ => s.st = .active ∨ s.st = .finished
      | .start _ _ => s.st = .uninitialized ∨ s.st = .active
      | .updateE _ => s.st ≠ .active
      | .updateD _ => s.st ≠ .active
      | .finishE _ => s.st ≠ .active
      | .finishD _ _ => s.st ≠ .active) →
    exec i s = .next { s with code := 6, rsp := s.rsp ++ responsePacket 6 s.st [] }

/-- R190: a command that is not rejected was issued in a state of R190's list, and leaves the state R190 says. -/
def Obligations.SuccessFollowsTheTransitionTable : Prop :=
  ∀ (i : Instr) (s t : State), exec i s = .next t → t.code = 0 →
    match i with
      | .init _ => (s.st = .uninitialized ∨ s.st = .ready) ∧ t.st = .ready
      | .start _ _ => (s.st = .ready ∨ s.st = .finished) ∧ t.st = .active
      | .updateE _ => s.st = .active ∧ t.st = .active
      | .updateD _ => s.st = .active ∧ t.st = .active
      | .finishE _ => s.st = .active ∧ t.st = .finished
      | .finishD _ _ => s.st = .active ∧ t.st = .finished

/-- R32, R33, R274: only INIT writes `KS` and `H`; and an INIT out of sequence leaves them. -/
def Obligations.OnlyAnAcceptedInitChangesTheKey : Prop :=
  ∀ (i : Instr) (s t : State), exec i s = .next t →
    (∀ key, i = .init key → s.st = .active ∨ s.st = .finished) → t.ks = s.ks ∧ t.h = s.h

/-! ## Reset and the invariant of R47 -/

/-- R49, R261: the machine after reset holds R49's table, with nothing sent and nothing answered yet; and resetting any instance puts
every register at those values and leaves no response to read. (What a reset does to the command stream is log 6 and not stated here.) -/
def Obligations.ResetGivesTheTableOfResetValues : Prop :=
  State.reset = { st := .uninitialized, ks := none, h := 0, j0 := 0, cb := 0, ksb := 0, y := 0, buf := 0,
                  aadLen := 0, dataLen := 0, code := 0, cmd := [], rsp := [] } ∧
  ∀ s : State, SameRegisters (resetInstance s) State.reset ∧ (resetInstance s).rsp = []

/-- R47 holds at reset. -/
def Obligations.EngineInvAtReset : Prop := EngineInv Config.cipher State.reset

/-- R47: every step keeps the invariant, from every state that has it. -/
def Obligations.EveryStepKeepsEngineInv : Prop :=
  ∀ (s t : State), EngineInv Config.cipher s → step s = .next t → EngineInv Config.cipher t

/-! ## INIT -/

/-- R192: INIT, accepted, with a key of a supported length. -/
def Obligations.InitBindsKeyAndSubkey : Prop :=
  ∀ (key : Bytes) (s : State), s.st = .uninitialized ∨ s.st = .ready → key.length ∈ Config.keySizes →
    exec (.init key) s = .next { s with
      st := .ready, ks := some (Config.expandKey key), h := Config.encryptBlock (Config.expandKey key) 0,
      j0 := 0, cb := 0, ksb := 0, y := 0, buf := 0, aadLen := 0, dataLen := 0,
      code := 0, rsp := s.rsp ++ responsePacket 0 .ready [] }

/-- R231: INIT, accepted, with a key of any other length resets every register but `CODE`, which becomes 1. -/
def Obligations.InitWithBadKeyLengthResetsTheInstance : Prop :=
  ∀ (key : Bytes) (s : State), s.st = .uninitialized ∨ s.st = .ready → key.length ∉ Config.keySizes →
    exec (.init key) s = .next { s with
      st := .uninitialized, ks := none, h := 0, j0 := 0, cb := 0, ksb := 0, y := 0, buf := 0, aadLen := 0, dataLen := 0,
      code := 1, rsp := s.rsp ++ responsePacket 1 .uninitialized [] }

/-! ## START -/

/-- R193: START, accepted, with a non-empty IV. -/
def Obligations.StartDerivesJ0AndFoldsTheAad : Prop :=
  ∀ (iv aad : Bytes) (s : State), s.st = .ready ∨ s.st = .finished → iv ≠ [] →
    exec (.start iv aad) s = .next { s with
      st := .active, j0 := deriveJ0 s.h iv, cb := deriveJ0 s.h iv, ksb := 0, y := absorb 0 aad s.h, buf := 0,
      aadLen := BitVec.ofNat 64 aad.length, dataLen := 0, code := 0, rsp := s.rsp ++ responsePacket 0 .active [] }

/-- R232: START, accepted, with an empty IV is InvalidIVLength and changes nothing but `CODE`; with any other IV it succeeds. -/
def Obligations.StartRejectsExactlyTheEmptyIv : Prop :=
  ∀ (aad : Bytes) (s : State), s.st = .ready ∨ s.st = .finished →
    exec (.start [] aad) s = .next { s with code := 2, rsp := s.rsp ++ responsePacket 2 s.st [] } ∧
    ∀ iv : Bytes, iv ≠ [] → ∃ t, exec (.start iv aad) s = .next t ∧ t.code = 0

/-- R171: on the 96-bit path `J0` is the IV in bytes 0 to 11 and the counter value 1 in the low 32 bits. -/
def Obligations.J0OfANinetySixBitIv : Prop :=
  ∀ (h : Block) (iv : Bytes), iv.length = 12 →
    (bytes16 (deriveJ0 h iv)).take 12 = iv ∧ (deriveJ0 h iv).extractLsb' 0 32 = 1

/-- R172, R173: on every other length `J0` is the hash of the padded IV and of the block that is its bit length, so that a
single-block IV takes two products. -/
def Obligations.J0OfAnyOtherIv : Prop :=
  (∀ (h : Block) (iv : Bytes), iv.length ≠ 12 → iv.length < 2 ^ 61 →
    deriveJ0 h iv = gfMul (absorb 0 iv h ^^^ BitVec.ofNat 128 (8 * iv.length)) h) ∧
  (∀ (h : Block) (iv : Bytes), 0 < iv.length → iv.length ≤ 16 →
    absorb 0 iv h = gfMul (blk (iv ++ zeros (16 - iv.length))) h)

/-! ## UPDATE -/

/-- R194, R195: UPDATE.E in a message in progress, the chunk within the data bound: it completes; byte `k` of the output is byte
`k` of the chunk xored with the keystream byte at its message offset; `DATA_LEN` grows by the chunk's length; `CB` is `J0`
stepped once per data block begun; `KSB` is its keystream block. -/
def Obligations.UpdateEncryptsWithTheKeystream : Prop :=
  ∀ (chunk : Bytes) (s : State), s.st = .active → EngineInv Config.cipher s →
    s.dataLen.toNat + chunk.length ≤ 2 ^ 36 - 32 →
    ∃ t, exec (.updateE chunk) s = .next t ∧
      t.rsp = s.rsp ++ responsePacket 0 .active (ctrFrom Config.cipher s.ks s.j0 s.dataLen.toNat chunk) ∧
      t.dataLen.toNat = s.dataLen.toNat + chunk.length ∧
      t.cb = inc32^[blocksBegun (s.dataLen.toNat + chunk.length)] s.j0 ∧
      (s.dataLen.toNat + chunk.length ≠ 0 → t.ksb = encrypt Config.cipher s.ks t.cb) ∧
      t.st = .active ∧ t.code = 0 ∧ t.ks = s.ks ∧ t.h = s.h ∧ t.j0 = s.j0 ∧ t.aadLen = s.aadLen ∧ t.cmd = s.cmd

/-- R194, R196: UPDATE.D in a message in progress, the chunk within the data bound: as UPDATE.E, the chunk being ciphertext and the
output plaintext. -/
def Obligations.UpdateDecryptsWithTheKeystream : Prop :=
  ∀ (chunk : Bytes) (s : State), s.st = .active → EngineInv Config.cipher s →
    s.dataLen.toNat + chunk.length ≤ 2 ^ 36 - 32 →
    ∃ t, exec (.updateD chunk) s = .next t ∧
      t.rsp = s.rsp ++ responsePacket 0 .active (ctrFrom Config.cipher s.ks s.j0 s.dataLen.toNat chunk) ∧
      t.dataLen.toNat = s.dataLen.toNat + chunk.length ∧
      t.cb = inc32^[blocksBegun (s.dataLen.toNat + chunk.length)] s.j0 ∧
      (s.dataLen.toNat + chunk.length ≠ 0 → t.ksb = encrypt Config.cipher s.ks t.cb) ∧
      t.st = .active ∧ t.code = 0 ∧ t.ks = s.ks ∧ t.h = s.h ∧ t.j0 = s.j0 ∧ t.aadLen = s.aadLen ∧ t.cmd = s.cmd

/-- R141, R194: what UPDATE hashes is the ciphertext, the output of UPDATE.E and the input of UPDATE.D: the accumulator of a
message so far becomes that of the message with those bytes appended. -/
def Obligations.UpdateHashesTheCiphertext : Prop :=
  ∀ (iv aad ct chunk : Bytes) (s t : State), EngineInv Config.cipher s → MessageSoFar iv aad ct s →
    ct.length + chunk.length ≤ 2 ^ 36 - 32 →
    (exec (.updateE chunk) s = .next t →
      MessageSoFar iv aad (ct ++ ctrFrom Config.cipher s.ks s.j0 ct.length chunk) t) ∧
    (exec (.updateD chunk) s = .next t → MessageSoFar iv aad (ct ++ chunk) t)

/-- R233: an UPDATE that would take the data total past the bound is PlaintextTooLong, in both directions, and changes nothing
but `CODE`; FINISH never raises that error. -/
def Obligations.UpdatePastTheDataBoundIsRejected : Prop :=
  (∀ (chunk : Bytes) (s : State), s.st = .active → s.dataLen.toNat + chunk.length > 2 ^ 36 - 32 →
    exec (.updateE chunk) s = .next { s with code := 3, rsp := s.rsp ++ responsePacket 3 .active [] } ∧
    exec (.updateD chunk) s = .next { s with code := 3, rsp := s.rsp ++ responsePacket 3 .active [] }) ∧
  (∀ (taglen : BitVec 8) (tag : Bytes) (s : State), ∃ t t',
    exec (.finishE taglen) s = .next t ∧ t.code ≠ 3 ∧ exec (.finishD taglen tag) s = .next t' ∧ t'.code ≠ 3)

/-- R201: an UPDATE with an empty chunk in a message in progress succeeds and changes nothing but `CODE`. -/
def Obligations.EmptyUpdateChangesNothing : Prop :=
  ∀ (s : State), s.st = .active → s.dataLen.toNat ≤ 2 ^ 36 - 32 →
    exec (.updateE []) s = .next { s with code := 0, rsp := s.rsp ++ responsePacket 0 .active [] } ∧
    exec (.updateD []) s = .next { s with code := 0, rsp := s.rsp ++ responsePacket 0 .active [] }

/-- R200: from any Active state, two UPDATEs of one direction leave the state that one UPDATE of the joined chunk leaves, and
their outputs join to its output, if that one is not rejected. -/
def Obligations.ChunkBoundariesDoNotMatter : Prop :=
  ∀ (u : Bytes → Instr) (a b : Bytes) (s : State), u = .updateE ∨ u = .updateD → s.st = .active →
    s.dataLen.toNat + (a ++ b).length ≤ 2 ^ 36 - 32 →
    ∃ (t1 t2 : State) (oa ob : Bytes),
      exec (u a) s = .next t1 ∧ t1.rsp = s.rsp ++ responsePacket 0 .active oa ∧
      exec (u b) t1 = .next t2 ∧ t2.rsp = t1.rsp ++ responsePacket 0 .active ob ∧
      exec (u (a ++ b)) s = .next { t2 with rsp := s.rsp ++ responsePacket 0 .active (oa ++ ob) }

/-! ## FINISH -/

/-- R197, R198: FINISH.E in Active with a legal tag length: the tag it outputs, and the state it leaves. -/
def Obligations.FinishEOutputsTheTag : Prop :=
  ∀ (taglen : BitVec 8) (s : State) (k : KeySchedule), s.st = .active → s.ks = some k →
    taglen.toNat % 8 = 0 → 32 ≤ taglen.toNat → taglen.toNat ≤ 128 →
    exec (.finishE taglen) s = .next { s with
      st := .finished, j0 := 0, cb := 0, ksb := 0, y := 0, buf := 0, aadLen := 0, dataLen := 0, code := 0,
      rsp := s.rsp ++ responsePacket 0 .finished
        ((bytes16 (foldBlock (flush (s.dataLen.toNat % 16) s).y (lenBlock s.aadLen.toNat s.dataLen.toNat) s.h
          ^^^ Config.encryptBlock k s.j0)).take (taglen.toNat / 8)) }

/-- R197, R199: FINISH.D in Active with a legal tag length and a tag of that length: OK when the tag is the computed one, else
AuthenticationFailed; no output and the same state in both. -/
def Obligations.FinishDComparesTheTag : Prop :=
  ∀ (taglen : BitVec 8) (tag : Bytes) (s : State) (k : KeySchedule), s.st = .active → s.ks = some k →
    taglen.toNat % 8 = 0 → 32 ≤ taglen.toNat → taglen.toNat ≤ 128 → tag.length = taglen.toNat / 8 →
    let computed := (bytes16 (foldBlock (flush (s.dataLen.toNat % 16) s).y (lenBlock s.aadLen.toNat s.dataLen.toNat) s.h
      ^^^ Config.encryptBlock k s.j0)).take (taglen.toNat / 8)
    let verdict : BitVec 8 := if computed = tag then 0 else 5
    exec (.finishD taglen tag) s = .next { s with
      st := .finished, j0 := 0, cb := 0, ksb := 0, y := 0, buf := 0, aadLen := 0, dataLen := 0, code := verdict,
      rsp := s.rsp ++ responsePacket verdict .finished [] }

/-- R234: FINISH in Active with an illegal tag length, or FINISH.D with a tag of another length, is InvalidTagLength and changes
nothing but `CODE`; the one-shot DECRYPT makes that check before any command. -/
def Obligations.FinishWithBadTagLengthIsRejected : Prop :=
  ∀ (taglen : BitVec 8) (tag : Bytes) (s : State),
    (s.st = .active → ¬ (taglen.toNat % 8 = 0 ∧ 32 ≤ taglen.toNat ∧ taglen.toNat ≤ 128) →
      exec (.finishE taglen) s = .next { s with code := 4, rsp := s.rsp ++ responsePacket 4 .active [] }) ∧
    (¬ (taglen.toNat % 8 = 0 ∧ 32 ≤ taglen.toNat ∧ taglen.toNat ≤ 128) ∨ tag.length ≠ taglen.toNat / 8 →
      (s.st = .active →
        exec (.finishD taglen tag) s = .next { s with code := 4, rsp := s.rsp ++ responsePacket 4 .active [] }) ∧
      ∀ iv aad ct : Bytes, decryptOneShot iv aad ct tag taglen s = .next (s, .error 4))

/-- R178, R9: the legal tag lengths are exactly thirteen values. -/
def Obligations.ThirteenTagLengthsAreLegal : Prop :=
  ∀ t : Nat, taglenOk t = true ↔ t ∈ [32, 40, 48, 56, 64, 72, 80, 88, 96, 104, 112, 120, 128]

/-- R179: the comparison is equality of the two strings. -/
def Obligations.ComparisonIsByteStringEquality : Prop :=
  ∀ a b : Bytes, a.length = b.length → (ctEq a b = true ↔ a = b)

/-- R181: for one key schedule, IV, associated data and ciphertext there is one full tag that every truncated tag is cut from, and the
shorter of two truncated tags is a prefix of the longer. -/
def Obligations.TruncatedTagsArePrefixes : Prop :=
  ∀ (c : Cipher) (ks : Option KeySchedule) (iv aad ct : Bytes),
    (∃ tag : Block, ∀ t : Nat, gcmTag c ks iv aad ct t = msb tag t) ∧
    ∀ t1 t2 : Nat, t1 ≤ t2 → gcmTag c ks iv aad ct t1 <+: gcmTag c ks iv aad ct t2

/-! ## The field and the hash -/

/-- R113: the multiplier computes the product of polynomials over GF(2) modulo the reduction polynomial. -/
def Obligations.MultiplierIsPolynomialProduct : Prop :=
  ∀ x y : Block, poly (gfMul x y) = (poly x * poly y) %ₘ gfPolynomial

/-- R114 (a), (b), (c): the product is commutative, associative and distributes over xor. -/
def Obligations.MultiplierIsCommutativeAssociativeDistributive : Prop :=
  (∀ a b : Block, gfMul a b = gfMul b a) ∧
  (∀ a b c : Block, gfMul (gfMul a b) c = gfMul a (gfMul b c)) ∧
  (∀ a b c : Block, gfMul (a ^^^ b) c = gfMul a c ^^^ gfMul b c)

/-- R115: the product with the polynomial x is the shift of R115, which is the shift by one bit, with `R` xored in when the bit that falls
off is 1. -/
def Obligations.MultiplierByX : Prop :=
  ∀ a : Block, gfMul a 0x40000000000000000000000000000000 = mulx a ∧
    mulx a = if a.getLsbD 0 then (a >>> 1) ^^^ 0xE1000000000000000000000000000000 else a >>> 1

/-- R114 (f): the field has no zero divisors. -/
def Obligations.MultiplierHasNoZeroDivisors : Prop :=
  ∀ a b : Block, gfMul a b = 0 → a = 0 ∨ b = 0

/-- R118: the corner values of the product. -/
def Obligations.MultiplierCornerValues : Prop :=
  (∀ a : Block, gfMul 0 a = 0 ∧ gfMul a 0 = 0 ∧ gfMul gfOne a = a ∧ gfMul a gfOne = a) ∧
  gfMul 0x40000000000000000000000000000000 0x40000000000000000000000000000000 = 0x20000000000000000000000000000000 ∧
  gfMul 1 0x40000000000000000000000000000000 = 0xE1000000000000000000000000000000 ∧
  gfMul 0x40000000000000000000000000000000 1 = 0xE1000000000000000000000000000000 ∧
  gfMul 1 1 = 0xE6080000000000000000000000000003 ∧
  gfMul 0x80 0x40000000000000000000000000000000 = 0x40 ∧
  gfMul 0x01000000000000000000000000000000 0x40000000000000000000000000000000 = 0x00800000000000000000000000000000 ∧
  gfMul 0xffffffffffffffffffffffffffffffff 0xffffffffffffffffffffffffffffffff = 0xF402AAAAAAAAAAAAAAAAAAAAAAAAAAAA ∧
  gfMul 0x66e94bd4ef8a2c3b884cfa59ca342b2e 0x66e94bd4ef8a2c3b884cfa59ca342b2e = 0xa569901bb4b18906f5059d24465c904d

/-- R140: the hash of a list of blocks is the sum of the blocks times descending powers of `H`. -/
def Obligations.HashIsASumOfPowers : Prop :=
  ∀ (h : Block) (xs : List Block), xs.foldl (fun acc x => foldBlock acc x h) 0 = ghashSum h xs

/-- R139: feeding a string byte by byte and flushing leaves the hash of the whole string and an empty buffer, from any state with
an empty buffer. -/
def Obligations.ByteSerialHashAgreesWithBlockwise : Prop :=
  ∀ (data : Bytes) (s : State), s.buf = 0 →
    flush (data.length % 16) ((List.range data.length).foldl (fun t k => absorbByte (data.getD k 0) (k % 16) t) s)
      = { s with y := absorb s.y data s.h }

/-- R136: the length block is the two bit lengths side by side; that of the empty message is 0, and so is its hash. -/
def Obligations.LengthBlockHoldsBothBitLengths : Prop :=
  (∀ a c : Nat, a < 2 ^ 61 → c < 2 ^ 61 →
    lenBlock a c = (BitVec.ofNat 64 (8 * a) ++ BitVec.ofNat 64 (8 * c) : BitVec 128) ∧
    (lenBlock a c).toNat = 8 * a * 2 ^ 64 + 8 * c) ∧
  lenBlock 0 0 = 0 ∧ ∀ h : Block, foldBlock 0 (lenBlock 0 0) h = 0

/-! ## The counter and the keystream -/

/-- R151: `inc32` copies the upper 96 bits and adds one to the low 32 modulo 2^32. -/
def Obligations.IncrementTouchesOnlyTheLowWord : Prop :=
  ∀ c : Block, (inc32 c).extractLsb 127 32 = c.extractLsb 127 32 ∧
    ((inc32 c).extractLsb 31 0).toNat = ((c.extractLsb 31 0).toNat + 1) % 2 ^ 32

/-- R157: no counter block is used twice in a message: `J0` and its first 2^32 - 2 successors are all different, and all have the same
upper 96 bits. -/
def Obligations.CounterBlocksOfAMessageAreDistinct : Prop :=
  ∀ (j : Block) (m n : Nat), m < n → n ≤ 2 ^ 32 - 2 →
    inc32^[m] j ≠ inc32^[n] j ∧ (inc32^[n] j).extractLsb 127 32 = j.extractLsb 127 32

/-- R158: the keystream applied twice, from the same message offset, gives the data back. -/
def Obligations.KeystreamIsSelfInverse : Prop :=
  ∀ (c : Cipher) (ks : Option KeySchedule) (j : Block) (off : Nat) (data : Bytes),
    ctrFrom c ks j off (ctrFrom c ks j off data) = data

/-- R159: how many cipher requests each command makes. -/
def Obligations.CipherRequestCounts : Prop :=
  ∀ (c : Cipher) (s : State),
    (∀ key, (cipherRequests c (.init key) s).length = if (commandFor c (.init key) s).code = 0 then 1 else 0) ∧
    (∀ iv aad, (cipherRequests c (.start iv aad) s).length = 0) ∧
    (∀ chunk, (cipherRequests c (.updateE chunk) s).length =
      if (commandFor c (.updateE chunk) s).code = 0 then blocksBegun (s.dataLen.toNat + chunk.length) - blocksBegun s.dataLen.toNat else 0) ∧
    (∀ chunk, (cipherRequests c (.updateD chunk) s).length =
      if (commandFor c (.updateD chunk) s).code = 0 then blocksBegun (s.dataLen.toNat + chunk.length) - blocksBegun s.dataLen.toNat else 0) ∧
    (∀ taglen, (cipherRequests c (.finishE taglen) s).length = if (commandFor c (.finishE taglen) s).code = 0 then 1 else 0) ∧
    (∀ taglen tag, (cipherRequests c (.finishD taglen tag) s).length =
      if (commandFor c (.finishD taglen tag) s).code = 0 ∨ (commandFor c (.finishD taglen tag) s).code = 5 then 1 else 0)

/-- R159, R10: a command depends on the cipher only through the blocks it requests: two ciphers that make the same key schedules
and agree on those blocks give the same state. -/
def Obligations.CommandSeesOnlyItsCipherRequests : Prop :=
  ∀ (c c' : Cipher) (i : Instr) (s : State), c.keySizes = c'.keySizes → c.expandKey = c'.expandKey →
    AgreeOn c c' (requestKey c i s) (cipherRequests c i s) → commandFor c i s = commandFor c' i s

/-! ## Whole messages -/

/-- R203: from Ready or Finished, START, any number of UPDATE.E and FINISH.E, none too long or illegal, all succeed, and the outputs
are the ciphertext and the tag of `gcm_encrypt`. -/
def Obligations.EncryptSequenceComputesGcm : Prop :=
  ∀ (iv aad : Bytes) (chunks : List Bytes) (taglen : BitVec 8) (s : State),
    s.st = .ready ∨ s.st = .finished → KeyBound Config.cipher s → iv ≠ [] → iv.length < 2 ^ 61 → aad.length < 2 ^ 61 →
    chunks.flatten.length ≤ 2 ^ 36 - 32 → taglenOk taglen.toNat = true →
    ∃ (t : State) (outs : List Bytes),
      runCommands (.start iv aad :: chunks.map .updateE ++ [.finishE taglen]) s = .next t ∧
      t.rsp = s.rsp ++ responsePacket 0 .active [] ++ (outs.map (responsePacket 0 .active)).flatten
        ++ responsePacket 0 .finished (gcmEncrypt Config.cipher s.ks iv aad chunks.flatten taglen.toNat).2 ∧
      outs.map List.length = chunks.map List.length ∧
      outs.flatten = (gcmEncrypt Config.cipher s.ks iv aad chunks.flatten taglen.toNat).1

/-- R203: from Ready or Finished, START, any number of UPDATE.D and FINISH.D with a tag of the right length: the outputs are the
keystream xor of the input, and the last status is 0 exactly when `gcm_decrypt` does not fail. -/
def Obligations.DecryptSequenceVerifiesGcm : Prop :=
  ∀ (iv aad tag : Bytes) (chunks : List Bytes) (taglen : BitVec 8) (s : State),
    s.st = .ready ∨ s.st = .finished → KeyBound Config.cipher s → iv ≠ [] → iv.length < 2 ^ 61 → aad.length < 2 ^ 61 →
    chunks.flatten.length ≤ 2 ^ 36 - 32 → taglenOk taglen.toNat = true → tag.length = taglen.toNat / 8 →
    ∃ (t : State) (outs : List Bytes),
      runCommands (.start iv aad :: chunks.map .updateD ++ [.finishD taglen tag]) s = .next t ∧
      t.rsp = s.rsp ++ responsePacket 0 .active [] ++ (outs.map (responsePacket 0 .active)).flatten
        ++ responsePacket t.code .finished [] ∧
      outs.map List.length = chunks.map List.length ∧
      outs.flatten = ctr Config.cipher s.ks (deriveJ0 s.h iv) chunks.flatten ∧
      (t.code = 0 ↔ (gcmDecrypt Config.cipher s.ks iv aad chunks.flatten tag taglen.toNat).isSome) ∧
      (t.code = 0 ∨ t.code = 5)

/-- R204, R212, R213: DECRYPT of what ENCRYPT gave, with the same IV, associated data and tag length, returns the plaintext, and
what ENCRYPT gave is `gcm_encrypt`. The one-shot sequences are written over `exec`, each reading the response its command has just
appended (DEDUCED, log 13) and leaving it in the response stream (DESIGN CHOICE, log 16). -/
def Obligations.DecryptOfEncryptIsThePlaintext : Prop :=
  ∀ (iv aad pt : Bytes) (taglen : BitVec 8) (s : State),
    s.st = .ready ∨ s.st = .finished → KeyBound Config.cipher s → iv ≠ [] → iv.length < 2 ^ 61 → aad.length < 2 ^ 61 →
    pt.length ≤ 2 ^ 36 - 32 → taglenOk taglen.toNat = true →
    ∃ (s1 s2 : State) (ct tag : Bytes),
      encryptOneShot iv aad pt taglen s = .next (s1, .ok (ct, tag)) ∧
      (ct, tag) = gcmEncrypt Config.cipher s.ks iv aad pt taglen.toNat ∧
      decryptOneShot iv aad ct tag taglen s1 = .next (s2, .ok pt)

/-- R212, R213, R235: DECRYPT with a tag that is not the message's returns AuthenticationFailed and no plaintext, and leaves the
instance in Finished. The one-shot sequence is written over `exec`, reading the response its command has just appended (DEDUCED,
log 13) and leaving it in the response stream (DESIGN CHOICE, log 16): no plaintext is RETURNED. -/
def Obligations.DecryptOfAForgeryFails : Prop :=
  ∀ (iv aad ct tag : Bytes) (taglen : BitVec 8) (s : State),
    s.st = .ready ∨ s.st = .finished → KeyBound Config.cipher s → iv ≠ [] → iv.length < 2 ^ 61 → aad.length < 2 ^ 61 →
    ct.length ≤ 2 ^ 36 - 32 → taglenOk taglen.toNat = true → tag.length = taglen.toNat / 8 →
    tag ≠ gcmTag Config.cipher s.ks iv aad ct taglen.toNat →
    ∃ t, decryptOneShot iv aad ct tag taglen s = .next (t, .error 5) ∧ t.st = .finished

/-- R205 (b): flipping one bit of the ciphertext, or of the associated data, changes the hash, and with it the 128-bit tag, exactly
when `H` is not 0. -/
def Obligations.FlippedBitChangesTheHash : Prop :=
  (∀ (h : Block) (aad ct : Bytes) (k b : Nat), b < 8 →
    (k < ct.length → (ghashMsg h aad (flipBit ct k b) ≠ ghashMsg h aad ct ↔ h ≠ 0)) ∧
    (k < aad.length → (ghashMsg h (flipBit aad k b) ct ≠ ghashMsg h aad ct ↔ h ≠ 0))) ∧
  (∀ (c : Cipher) (ks : Option KeySchedule) (iv aad ct : Bytes) (k b : Nat), b < 8 →
    (k < ct.length → (gcmTag c ks iv aad (flipBit ct k b) 128 ≠ gcmTag c ks iv aad ct 128 ↔ hashSubkey c ks ≠ 0)) ∧
    (k < aad.length → (gcmTag c ks iv (flipBit aad k b) ct 128 ≠ gcmTag c ks iv aad ct 128 ↔ hashSubkey c ks ≠ 0)))

/-- R205 (c): flipping one bit of the IV changes `J0`, always on the 96-bit path and on the other path exactly when `H` is not 0; the
128-bit tag then changes exactly when the cipher maps the two values of `J0` to different blocks. -/
def Obligations.FlippedIvBitChangesJ0 : Prop :=
  ∀ (c : Cipher) (ks : Option KeySchedule) (h : Block) (iv aad ct : Bytes) (k b : Nat), b < 8 → k < iv.length →
    (iv.length = 12 → deriveJ0 h (flipBit iv k b) ≠ deriveJ0 h iv) ∧
    (iv.length ≠ 12 → (deriveJ0 h (flipBit iv k b) ≠ deriveJ0 h iv ↔ h ≠ 0)) ∧
    (gcmTag c ks (flipBit iv k b) aad ct 128 ≠ gcmTag c ks iv aad ct 128 ↔
      encrypt c ks (deriveJ0 (hashSubkey c ks) (flipBit iv k b)) ≠ encrypt c ks (deriveJ0 (hashSubkey c ks) iv))

/-- R206: nothing of an earlier message survives START: two instances with the same key, whatever their message registers, agree on
every register after the same accepted START. -/
def Obligations.StartForgetsTheEarlierMessage : Prop :=
  ∀ (iv aad : Bytes) (s s' : State), s.ks = s'.ks → s.h = s'.h → s.st = .ready ∨ s.st = .finished →
    s'.st = .ready ∨ s'.st = .finished → iv ≠ [] →
    ∃ t t', exec (.start iv aad) s = .next t ∧ exec (.start iv aad) s' = .next t' ∧ SameRegisters t t'

/-! ## Host and platform -/

/-- R60, R68: sending and reading touch the two streams and no register; what is read is the head of the response stream. -/
def Obligations.HostActionsTouchOnlyTheStreams : Prop :=
  ∀ (s : State) (bytes : Bytes) (n : Nat),
    hostSend bytes s = { s with cmd := s.cmd ++ bytes } ∧
    (hostRead n s).2 = { s with rsp := s.rsp.drop n } ∧ (hostRead n s).1 ++ (hostRead n s).2.rsp = s.rsp

/-- R74, R250: an event at one instance gives that instance its own next state and leaves every other instance as it is. -/
def Obligations.EventTouchesOneInstance : Prop :=
  ∀ (n : Nat) (k : Fin n) (e : Event) (p q : Platform n), Platform.event k e p = .next q →
    engineEvent e p.engines[k] = .next q.engines[k] ∧ ∀ j : Fin n, j ≠ k → q.engines[j] = p.engines[j]

/-- R74, R250: events at two instances commute. -/
def Obligations.EventsAtTwoInstancesCommute : Prop :=
  ∀ (n : Nat) (k j : Fin n) (e f : Event) (p q r : Platform n), k ≠ j →
    Platform.event k e p = .next q → Platform.event j f q = .next r →
    ∃ q', Platform.event j f p = .next q' ∧ Platform.event k e q' = .next r
end

