-- ==== Sys2Proof/Laws/Bytes.lean ====
section
/-! SUPPORT. Sys2Proof/Laws/Bytes.lean: what the byte-order operations say bit by bit, and that they invert each other (R17, R19, R65). -/

namespace Sys2Proof.Machine

@[simp] theorem toBytesBE_length {w : Nat} (n : Nat) (v : BitVec w) : (toBytesBE n v).length = n := by
  simp [toBytesBE]

theorem toBytesBE_getElem {w : Nat} (n : Nat) (v : BitVec w) (k : Nat) (h : k < (toBytesBE n v).length) :
    (toBytesBE n v)[k] = v.extractLsb' (8 * (n - 1 - k)) 8 := by
  simp [toBytesBE]

@[simp] theorem zeros_length (n : Nat) : (zeros n).length = n := by simp [zeros]

@[simp] theorem zeros_zero : zeros 0 = [] := rfl

@[simp] theorem ofBytesBE_nil (w : Nat) : ofBytesBE w [] = 0 := rfl

theorem ofBytesBE_concat (w : Nat) (b : Bytes) (x : Byte) :
    ofBytesBE w (b ++ [x]) = (ofBytesBE w b <<< 8) ||| x.setWidth w := by
  simp [ofBytesBE]

/-- Bit `i` of a string read big-endian is bit `i mod 8` of its byte number `i / 8` from the end (R17). -/
theorem ofBytesBE_getLsbD (w : Nat) (b : Bytes) (i : Nat) :
    (ofBytesBE w b).getLsbD i = (decide (i < w) && (b.reverse.getD (i / 8) 0).getLsbD (i % 8)) := by
  induction b using List.reverseRecOn generalizing i with
  | nil => simp
  | append_singleton b x ih =>
    rw [ofBytesBE_concat]
    simp only [BitVec.getLsbD_or, BitVec.getLsbD_shiftLeft, BitVec.getLsbD_setWidth, ih, List.reverse_append,
      List.reverse_cons, List.reverse_nil, List.nil_append, List.singleton_append]
    by_cases hi : i < w
    · by_cases h8 : i < 8
      · have h0 : i / 8 = 0 := by omega
        have h1 : i % 8 = i := by omega
        simp [hi, h8, h0, h1]
      · obtain ⟨j, rfl⟩ : ∃ j, i = j + 8 := ⟨i - 8, by omega⟩
        have h0 : (j + 8) / 8 = j / 8 + 1 := by omega
        have h1 : (j + 8) % 8 = j % 8 := by omega
        have h2 : j < w := by omega
        simp [hi, h0, h1, h2]
    · simp [hi]

/-- Reading back what was written big-endian (R17, R65). -/
theorem ofBytesBE_toBytesBE (n : Nat) (v : BitVec (8 * n)) : ofBytesBE (8 * n) (toBytesBE n v) = v := by
  apply BitVec.eq_of_getLsbD_eq
  intro i hi
  rw [ofBytesBE_getLsbD]
  have hk : i / 8 < n := by omega
  have hl : i / 8 < (toBytesBE n v).reverse.length := by simpa using hk
  rw [List.getD_eq_getElem?_getD, List.getElem?_eq_getElem hl, Option.getD_some, List.getElem_reverse, toBytesBE_getElem]
  simp only [toBytesBE_length, BitVec.getLsbD_extractLsb']
  have e : 8 * (n - 1 - (n - 1 - i / 8)) + i % 8 = i := by omega
  have e8 : i % 8 < 8 := by omega
  simp [hi, e, e8]

/-- Writing back what was read big-endian (R17, R65). -/
theorem toBytesBE_ofBytesBE (n : Nat) (b : Bytes) (h : b.length = n) : toBytesBE n (ofBytesBE (8 * n) b) = b := by
  subst h
  apply List.ext_getElem (by simp)
  intro k h1 h2
  rw [toBytesBE_getElem]
  apply BitVec.eq_of_getLsbD_eq
  intro i hi
  simp only [BitVec.getLsbD_extractLsb', ofBytesBE_getLsbD]
  have e1 : (8 * (b.length - 1 - k) + i) / 8 = b.length - 1 - k := by omega
  have e2 : (8 * (b.length - 1 - k) + i) % 8 = i := by omega
  have e3 : 8 * (b.length - 1 - k) + i < 8 * b.length := by omega
  have e4 : b.length - 1 - k < b.reverse.length := by simp; omega
  rw [e1, e2, List.getD_eq_getElem?_getD, List.getElem?_eq_getElem e4, Option.getD_some, List.getElem_reverse]
  have e5 : b.length - 1 - (b.length - 1 - k) = k := by omega
  simp [hi, e3, e5]

theorem blk_bytes16 (v : Block) : blk (bytes16 v) = v := ofBytesBE_toBytesBE 16 v

theorem bytes16_blk (b : Bytes) (h : b.length = 16) : bytes16 (blk b) = b := toBytesBE_ofBytesBE 16 b h

@[simp] theorem bytes16_length (v : Block) : (bytes16 v).length = 16 := toBytesBE_length 16 v

theorem bytes16_getElem (v : Block) (p : Nat) (h : p < (bytes16 v).length) : (bytes16 v)[p] = getByte v p := by
  have hp : p < 16 := by simpa using h
  have e : 8 * (16 - 1 - p) = 120 - 8 * p := by omega
  simp only [bytes16, toBytesBE_getElem, getByte, e]

/-- The byte at position `p` of the block a string makes is the string's byte `p` (R17). -/
theorem getByte_blk (b : Bytes) (h : b.length = 16) (p : Nat) (hp : p < b.length) : getByte (blk b) p = b[p] := by
  have h1 : p < (bytes16 (blk b)).length := by simp; omega
  rw [← bytes16_getElem _ _ h1]
  simp only [bytes16_blk b h]

/-- Two blocks with the same sixteen bytes are equal (R17). -/
theorem block_ext (v w : Block) (h : ∀ p, p < 16 → getByte v p = getByte w p) : v = w := by
  have e : bytes16 v = bytes16 w := by
    apply List.ext_getElem (by simp)
    intro p h1 h2
    rw [bytes16_getElem, bytes16_getElem]
    exact h p (by simpa using h1)
  rw [← blk_bytes16 v, e, blk_bytes16]

theorem getByte_getLsbD (v : Block) (p i : Nat) :
    (getByte v p).getLsbD i = (decide (i < 8) && v.getLsbD (120 - 8 * p + i)) := by
  simp [getByte, BitVec.getLsbD_extractLsb']

/-- `setbyte` puts its byte at its position and leaves the other fifteen (R17). -/
theorem getByte_setByte (v : Block) (p q : Nat) (c : Byte) (hp : p < 16) (hq : q < 16) :
    getByte (setByte v p c) q = if q = p then c else getByte v q := by
  apply BitVec.eq_of_getLsbD_eq
  intro i hi
  have key : (0xFF : Block) = (BitVec.allOnes 8).setWidth 128 := by decide
  rw [getByte_getLsbD]
  simp only [setByte, key, BitVec.getLsbD_or, BitVec.getLsbD_and, BitVec.getLsbD_not, BitVec.getLsbD_shiftLeft,
    BitVec.getLsbD_setWidth, BitVec.getLsbD_allOnes, hi, decide_true, Bool.true_and]
  have hlt : 120 - 8 * q + i < 128 := by omega
  by_cases hqp : q = p
  · subst hqp
    have h1 : ¬ 120 - 8 * q + i < 120 - 8 * q := by omega
    have h2 : 120 - 8 * q + i - (120 - 8 * q) = i := by omega
    simp [hlt, h2, hi, show i < 128 by omega]
  · rw [if_neg hqp, getByte_getLsbD]
    by_cases hlo : 120 - 8 * q + i < 120 - 8 * p
    · simp [hlt, hlo, hi]
    · have h8 : ¬ 120 - 8 * q + i - (120 - 8 * p) < 8 := by omega
      have hc : c.getLsbD (120 - 8 * q + i - (120 - 8 * p)) = false := BitVec.getLsbD_of_ge c _ (by omega)
      simp [hlt, hlo, h8, hc, hi]

@[simp] theorem getByte_zero (p : Nat) : getByte 0#128 p = 0#8 := by
  apply BitVec.eq_of_getLsbD_eq
  intro i hi
  simp [getByte_getLsbD]

theorem getByte_xor (v w : Block) (p : Nat) : getByte (v ^^^ w) p = getByte v p ^^^ getByte w p := by
  apply BitVec.eq_of_getLsbD_eq
  intro i hi
  rw [BitVec.getLsbD_xor, getByte_getLsbD, getByte_getLsbD, getByte_getLsbD, BitVec.getLsbD_xor]
  simp [hi]

/-! Padding and cutting into blocks (R19). -/

@[simp] theorem pad16_nil : pad16 [] = [] := rfl

@[simp] theorem pad16_length (b : Bytes) : (pad16 b).length = 16 * ((b.length + 15) / 16) := by
  simp only [pad16, List.length_append, zeros_length]; omega

@[simp] theorem takeBlocks_length (n : Nat) (b : Bytes) : (takeBlocks n b).length = n := by
  induction n generalizing b with
  | zero => rfl
  | succ n ih => simp [takeBlocks, ih]

@[simp] theorem blocks_nil : blocks [] = [] := rfl

theorem blocks_cons (a b : Bytes) (h : a.length = 16) : blocks (a ++ b) = blk a :: blocks b := by
  have e : (a ++ b).length / 16 = b.length / 16 + 1 := by simp only [List.length_append, h]; omega
  simp only [blocks, e, takeBlocks]
  rw [← h, List.take_left, List.drop_left, h]

end Sys2Proof.Machine
end

