-- ==== Sys2Proof/Laws/Decode.lean ====
section
/-! SUPPORT. Sys2Proof/Laws/Decode.lean: what framing and decoding can answer, said once (R81 to R87, R92). -/

namespace Sys2Proof.Machine

/-- Framing finds a packet exactly where one stands at the head of the stream (R83, R92). -/
theorem frame_eq_packet_iff (stream opA opB rest : Bytes) (d : Descriptor) :
    frame stream = .packet d opA opB rest ↔
      stream = toBytesBE 24 d ++ opA ++ opB ++ rest ∧
      opA.length = (lenAField d).toNat ∧ opB.length = (lenBField d).toNat := by
  constructor
  · intro h
    unfold frame at h
    split at h
    · cases h
    · split at h
      · cases h
      · next x xs h24 =>
        dsimp only at h
        split at h
        · cases h
        · next hlen =>
          injection h with hd ha hb hr
          subst hd; subst ha; subst hb; subst hr
          have e24 : ((x :: xs).take 24).length = 24 := by rw [List.length_take]; omega
          refine ⟨?_, ?_, ?_⟩
          · rw [show toBytesBE 24 (ofBytesBE 192 ((x :: xs).take 24)) = (x :: xs).take 24 from
              toBytesBE_ofBytesBE 24 _ e24]
            rw [List.append_assoc, List.append_assoc, ← List.drop_drop, List.take_append_drop, List.take_append_drop,
              List.take_append_drop]
          · rw [List.length_take]; omega
          · rw [List.length_take, List.length_drop]; omega
  · rintro ⟨rfl, ha, hb⟩
    have hl : (toBytesBE 24 d).length = 24 := toBytesBE_length 24 d
    have e1 : (toBytesBE 24 d ++ opA ++ opB ++ rest).take 24 = toBytesBE 24 d := by
      rw [List.append_assoc, List.append_assoc, List.take_left' hl]
    have e2 : (toBytesBE 24 d ++ opA ++ opB ++ rest).drop 24 = opA ++ opB ++ rest := by
      rw [List.append_assoc, List.append_assoc, List.drop_left' hl, List.append_assoc]
    have e3 : ofBytesBE 192 (toBytesBE 24 d) = d := ofBytesBE_toBytesBE 24 d
    unfold frame
    split
    · next h =>
      have := congrArg List.length h
      simp only [List.length_append, toBytesBE_length, List.length_nil] at this
      omega
    · rw [if_neg (by simp only [List.length_append, toBytesBE_length]; omega)]
      simp only [e1, e2, e3]
      rw [if_neg (by simp only [List.length_append]; omega), ← ha, ← hb]
      congr 1
      · rw [List.append_assoc, List.take_left]
      · rw [List.append_assoc, List.drop_left, List.take_left]
      · rw [← List.length_append, List.drop_left]

/-- Framing answers that nothing is there exactly on the empty stream (R260). -/
theorem frame_eq_idle_iff (stream : Bytes) : frame stream = .idle ↔ stream = [] := by
  constructor
  · intro h
    unfold frame at h
    split at h
    · rfl
    · split at h
      · cases h
      · dsimp only at h; split at h <;> cases h
  · rintro rfl; rfl

/-! The fields of a descriptor that was built from fields (R81). -/

section fields
variable (opc : BitVec 4) (dir : BitVec 1) (t : BitVec 8) (a b : BitVec 61)

@[simp] theorem opcField_make : opcField (makeDescriptor opc dir t a b) = opc := by
  simp only [opcField, makeDescriptor]; bv_normalize

@[simp] theorem dirField_make : dirField (makeDescriptor opc dir t a b) = dir := by
  simp only [dirField, makeDescriptor]; bv_normalize

@[simp] theorem rsv0Field_make : rsv0Field (makeDescriptor opc dir t a b) = 0 := by
  simp only [rsv0Field, makeDescriptor]; bv_normalize

@[simp] theorem taglenField_make : taglenField (makeDescriptor opc dir t a b) = t := by
  simp only [taglenField, makeDescriptor]; bv_normalize

@[simp] theorem rsv1Field_make : rsv1Field (makeDescriptor opc dir t a b) = 0 := by
  simp only [rsv1Field, makeDescriptor]; bv_normalize

@[simp] theorem rsv2Field_make : rsv2Field (makeDescriptor opc dir t a b) = 0 := by
  simp only [rsv2Field, makeDescriptor]; bv_normalize

@[simp] theorem lenAField_make : lenAField (makeDescriptor opc dir t a b) = a := by
  simp only [lenAField, makeDescriptor]; bv_normalize

@[simp] theorem rsv3Field_make : rsv3Field (makeDescriptor opc dir t a b) = 0 := by
  simp only [rsv3Field, makeDescriptor]; bv_normalize

@[simp] theorem lenBField_make : lenBField (makeDescriptor opc dir t a b) = b := by
  simp only [lenBField, makeDescriptor]; bv_normalize

end fields

/-- A descriptor is made of its nine fields (R81). -/
theorem descriptor_ext (d e : Descriptor) (h1 : opcField d = opcField e) (h2 : dirField d = dirField e)
    (h3 : rsv0Field d = rsv0Field e) (h4 : taglenField d = taglenField e) (h5 : rsv1Field d = rsv1Field e)
    (h6 : rsv2Field d = rsv2Field e) (h7 : lenAField d = lenAField e) (h8 : rsv3Field d = rsv3Field e)
    (h9 : lenBField d = lenBField e) : d = e := by
  have field : ∀ {lo n : Nat} {x y : Descriptor}, x.extractLsb' lo n = y.extractLsb' lo n →
      ∀ i, lo ≤ i → i < lo + n → x.getLsbD i = y.getLsbD i := by
    intro lo n x y hxy i hlo hi
    have := congrArg (fun v => v.getLsbD (i - lo)) hxy
    simpa [BitVec.getLsbD_extractLsb', show i - lo < n by omega, show lo + (i - lo) = i by omega] using this
  apply BitVec.eq_of_getLsbD_eq
  intro i hi
  by_cases c9 : i < 61
  · exact field h9 i (by omega) (by omega)
  by_cases c8 : i < 64
  · exact field h8 i (by omega) (by omega)
  by_cases c7 : i < 125
  · exact field h7 i (by omega) (by omega)
  by_cases c6 : i < 128
  · exact field h6 i (by omega) (by omega)
  by_cases c5 : i < 176
  · exact field h5 i (by omega) (by omega)
  by_cases c4 : i < 184
  · exact field h4 i (by omega) (by omega)
  by_cases c3 : i < 187
  · exact field h3 i (by omega) (by omega)
  by_cases c2 : i < 188
  · exact field h2 i (by omega) (by omega)
  · exact field h1 i (by omega) (by omega)

end Sys2Proof.Machine

namespace Sys2Proof

open Sys2Proof.Machine

theorem require_eq_ok_iff (ok : Bool) (why : IllegalReason) (k : Except IllegalReason Instr) (i : Instr) :
    require ok why k = .ok i ↔ ok = true ∧ k = .ok i := by
  cases ok <;> simp [require]

/-- Everything the descriptor can decode to, with the field values R85 asks for and the operands of R86. -/
theorem decodeDescriptor_ok_cases {d : Descriptor} {opA opB : Bytes} {i : Instr}
    (h : decodeDescriptor d opA opB = .ok i) :
    (rsv0Field d = 0 ∧ rsv1Field d = 0 ∧ rsv2Field d = 0 ∧ rsv3Field d = 0) ∧
    ((opcField d = 1 ∧ dirField d = 0 ∧ taglenField d = 0 ∧ lenBField d = 0 ∧ i = .init opA) ∨
     (opcField d = 2 ∧ dirField d = 0 ∧ taglenField d = 0 ∧ i = .start opA opB) ∨
     (opcField d = 3 ∧ dirField d = 0 ∧ taglenField d = 0 ∧ lenBField d = 0 ∧ i = .updateE opA) ∨
     (opcField d = 3 ∧ dirField d = 1 ∧ taglenField d = 0 ∧ lenBField d = 0 ∧ i = .updateD opA) ∨
     (opcField d = 4 ∧ dirField d = 0 ∧ lenBField d = 0 ∧ lenAField d = 0 ∧ i = .finishE (taglenField d)) ∨
     (opcField d = 4 ∧ dirField d = 1 ∧ lenBField d = 0 ∧ i = .finishD (taglenField d) opA)) := by
  have bit : ∀ x : BitVec 1, x ≠ 0 → x = 1 := by decide
  have opcOf : ∀ (x : BitVec 4) (n : Nat), x.toNat = n → x = BitVec.ofNat 4 n := by
    intro x n hx; subst hx; simp
  unfold decodeDescriptor at h
  rw [require_eq_ok_iff] at h
  obtain ⟨hr, h⟩ := h
  refine ⟨by simpa [and_assoc] using hr, ?_⟩
  split at h
  · next ho =>
    simp only [require_eq_ok_iff, beq_iff_eq, Except.ok.injEq] at h
    obtain ⟨h1, h2, h3, rfl⟩ := h
    exact .inl ⟨opcOf _ _ ho, h1, h2, h3, rfl⟩
  · next ho =>
    simp only [require_eq_ok_iff, beq_iff_eq, Except.ok.injEq] at h
    obtain ⟨h1, h2, rfl⟩ := h
    exact .inr (.inl ⟨opcOf _ _ ho, h1, h2, rfl⟩)
  · next ho =>
    simp only [require_eq_ok_iff, beq_iff_eq, Except.ok.injEq] at h
    obtain ⟨h1, h2, h3⟩ := h
    split at h3
    · next hd => exact .inr (.inr (.inl ⟨opcOf _ _ ho, by simpa using hd, h1, h2, h3.symm⟩))
    · next hd => exact .inr (.inr (.inr (.inl ⟨opcOf _ _ ho, bit _ (by simpa using hd), h1, h2, h3.symm⟩)))
  · next ho =>
    rw [require_eq_ok_iff] at h
    obtain ⟨h1, h⟩ := h
    split at h
    · next hd =>
      simp only [require_eq_ok_iff, beq_iff_eq, Except.ok.injEq] at h
      exact .inr (.inr (.inr (.inr (.inl ⟨opcOf _ _ ho, by simpa using hd, by simpa using h1, h.1, h.2.symm⟩))))
    · next hd =>
      simp only [Except.ok.injEq] at h
      exact .inr (.inr (.inr (.inr (.inr ⟨opcOf _ _ ho, bit _ (by simpa using hd), by simpa using h1, h.symm⟩))))
  · cases h

/-- What a decoded command says of its stream: one whole packet stands at the head (R83, R92). -/
theorem decode_command_frame {stream rest : Bytes} {i : Instr} (h : decode stream = .command i rest) :
    ∃ d opA opB, frame stream = .packet d opA opB rest ∧ decodeDescriptor d opA opB = .ok i := by
  unfold decode at h
  split at h
  · cases h
  · cases h
  · next d opA opB rest' hf =>
    split at h
    · cases h
    · next j hd =>
      injection h with hi hr
      subst hi; subst hr
      exact ⟨d, opA, opB, hf, hd⟩

theorem decode_illegal_frame {stream rest : Bytes} {why : IllegalReason} (h : decode stream = .illegal why rest) :
    ∃ d opA opB, frame stream = .packet d opA opB rest ∧ decodeDescriptor d opA opB = .error why := by
  unfold decode at h
  split at h
  · cases h
  · cases h
  · next d opA opB rest' hf =>
    split at h
    · next w hd =>
      injection h with hi hr
      subst hi; subst hr
      exact ⟨d, opA, opB, hf, hd⟩
    · cases h

@[simp] theorem descriptor_lenA (i : Instr) : lenAField i.descriptor = BitVec.ofNat 61 i.opA.length := by
  simp [Instr.descriptor]

@[simp] theorem descriptor_lenB (i : Instr) : lenBField i.descriptor = BitVec.ofNat 61 i.opB.length := by
  simp [Instr.descriptor]

end Sys2Proof
end

