-- ==== Sys2Proof/Laws/State.lean ====
section
/-! SUPPORT. Sys2Proof/Laws/State.lean: one lemma per field per update, so that no proof unfolds a record update. -/

namespace Sys2Proof.Machine

/-! Answering a command (R191 (7)). -/

@[simp] theorem respond_st (e : Status) (out : Bytes) (s : State) : (respond e out s).st = s.st := rfl
@[simp] theorem respond_ks (e : Status) (out : Bytes) (s : State) : (respond e out s).ks = s.ks := rfl
@[simp] theorem respond_h (e : Status) (out : Bytes) (s : State) : (respond e out s).h = s.h := rfl
@[simp] theorem respond_j0 (e : Status) (out : Bytes) (s : State) : (respond e out s).j0 = s.j0 := rfl
@[simp] theorem respond_cb (e : Status) (out : Bytes) (s : State) : (respond e out s).cb = s.cb := rfl
@[simp] theorem respond_ksb (e : Status) (out : Bytes) (s : State) : (respond e out s).ksb = s.ksb := rfl
@[simp] theorem respond_y (e : Status) (out : Bytes) (s : State) : (respond e out s).y = s.y := rfl
@[simp] theorem respond_buf (e : Status) (out : Bytes) (s : State) : (respond e out s).buf = s.buf := rfl
@[simp] theorem respond_aadLen (e : Status) (out : Bytes) (s : State) : (respond e out s).aadLen = s.aadLen := rfl
@[simp] theorem respond_dataLen (e : Status) (out : Bytes) (s : State) : (respond e out s).dataLen = s.dataLen := rfl
@[simp] theorem respond_code (e : Status) (out : Bytes) (s : State) : (respond e out s).code = e.number := rfl
@[simp] theorem respond_cmd (e : Status) (out : Bytes) (s : State) : (respond e out s).cmd = s.cmd := rfl
@[simp] theorem respond_rsp (e : Status) (out : Bytes) (s : State) : (respond e out s).rsp = s.rsp ++ responsePacket e.number s.st out := rfl

/-! Success (R230). -/

@[simp] theorem succeed_st (out : Bytes) (s : State) : (succeed out s).st = s.st := rfl
@[simp] theorem succeed_ks (out : Bytes) (s : State) : (succeed out s).ks = s.ks := rfl
@[simp] theorem succeed_h (out : Bytes) (s : State) : (succeed out s).h = s.h := rfl
@[simp] theorem succeed_j0 (out : Bytes) (s : State) : (succeed out s).j0 = s.j0 := rfl
@[simp] theorem succeed_cb (out : Bytes) (s : State) : (succeed out s).cb = s.cb := rfl
@[simp] theorem succeed_ksb (out : Bytes) (s : State) : (succeed out s).ksb = s.ksb := rfl
@[simp] theorem succeed_y (out : Bytes) (s : State) : (succeed out s).y = s.y := rfl
@[simp] theorem succeed_buf (out : Bytes) (s : State) : (succeed out s).buf = s.buf := rfl
@[simp] theorem succeed_aadLen (out : Bytes) (s : State) : (succeed out s).aadLen = s.aadLen := rfl
@[simp] theorem succeed_dataLen (out : Bytes) (s : State) : (succeed out s).dataLen = s.dataLen := rfl
@[simp] theorem succeed_code (out : Bytes) (s : State) : (succeed out s).code = 0 := rfl
@[simp] theorem succeed_cmd (out : Bytes) (s : State) : (succeed out s).cmd = s.cmd := rfl
@[simp] theorem succeed_rsp (out : Bytes) (s : State) : (succeed out s).rsp = s.rsp ++ responsePacket 0 s.st out := rfl

/-! Zeroing the message (R48). -/

@[simp] theorem clearMessage_st (s : State) : (clearMessage s).st = s.st := rfl
@[simp] theorem clearMessage_ks (s : State) : (clearMessage s).ks = s.ks := rfl
@[simp] theorem clearMessage_h (s : State) : (clearMessage s).h = s.h := rfl
@[simp] theorem clearMessage_j0 (s : State) : (clearMessage s).j0 = 0 := rfl
@[simp] theorem clearMessage_cb (s : State) : (clearMessage s).cb = 0 := rfl
@[simp] theorem clearMessage_ksb (s : State) : (clearMessage s).ksb = 0 := rfl
@[simp] theorem clearMessage_y (s : State) : (clearMessage s).y = 0 := rfl
@[simp] theorem clearMessage_buf (s : State) : (clearMessage s).buf = 0 := rfl
@[simp] theorem clearMessage_aadLen (s : State) : (clearMessage s).aadLen = 0 := rfl
@[simp] theorem clearMessage_dataLen (s : State) : (clearMessage s).dataLen = 0 := rfl
@[simp] theorem clearMessage_code (s : State) : (clearMessage s).code = s.code := rfl
@[simp] theorem clearMessage_cmd (s : State) : (clearMessage s).cmd = s.cmd := rfl
@[simp] theorem clearMessage_rsp (s : State) : (clearMessage s).rsp = s.rsp := rfl

/-! The fatal effect of InvalidKeyLength (R231). -/

@[simp] theorem resetRegisters_st (s : State) : (resetRegisters s).st = .uninitialized := rfl
@[simp] theorem resetRegisters_ks (s : State) : (resetRegisters s).ks = none := rfl
@[simp] theorem resetRegisters_h (s : State) : (resetRegisters s).h = 0 := rfl
@[simp] theorem resetRegisters_j0 (s : State) : (resetRegisters s).j0 = 0 := rfl
@[simp] theorem resetRegisters_cb (s : State) : (resetRegisters s).cb = 0 := rfl
@[simp] theorem resetRegisters_ksb (s : State) : (resetRegisters s).ksb = 0 := rfl
@[simp] theorem resetRegisters_y (s : State) : (resetRegisters s).y = 0 := rfl
@[simp] theorem resetRegisters_buf (s : State) : (resetRegisters s).buf = 0 := rfl
@[simp] theorem resetRegisters_aadLen (s : State) : (resetRegisters s).aadLen = 0 := rfl
@[simp] theorem resetRegisters_dataLen (s : State) : (resetRegisters s).dataLen = 0 := rfl
@[simp] theorem resetRegisters_code (s : State) : (resetRegisters s).code = s.code := rfl
@[simp] theorem resetRegisters_cmd (s : State) : (resetRegisters s).cmd = s.cmd := rfl
@[simp] theorem resetRegisters_rsp (s : State) : (resetRegisters s).rsp = s.rsp := rfl

/-! `load` (R153). -/

@[simp] theorem loadCounter_st (j : Block) (s : State) : (loadCounter j s).st = s.st := rfl
@[simp] theorem loadCounter_ks (j : Block) (s : State) : (loadCounter j s).ks = s.ks := rfl
@[simp] theorem loadCounter_h (j : Block) (s : State) : (loadCounter j s).h = s.h := rfl
@[simp] theorem loadCounter_j0 (j : Block) (s : State) : (loadCounter j s).j0 = s.j0 := rfl
@[simp] theorem loadCounter_cb (j : Block) (s : State) : (loadCounter j s).cb = j := rfl
@[simp] theorem loadCounter_ksb (j : Block) (s : State) : (loadCounter j s).ksb = 0 := rfl
@[simp] theorem loadCounter_y (j : Block) (s : State) : (loadCounter j s).y = s.y := rfl
@[simp] theorem loadCounter_buf (j : Block) (s : State) : (loadCounter j s).buf = s.buf := rfl
@[simp] theorem loadCounter_aadLen (j : Block) (s : State) : (loadCounter j s).aadLen = s.aadLen := rfl
@[simp] theorem loadCounter_dataLen (j : Block) (s : State) : (loadCounter j s).dataLen = s.dataLen := rfl
@[simp] theorem loadCounter_code (j : Block) (s : State) : (loadCounter j s).code = s.code := rfl
@[simp] theorem loadCounter_cmd (j : Block) (s : State) : (loadCounter j s).cmd = s.cmd := rfl
@[simp] theorem loadCounter_rsp (j : Block) (s : State) : (loadCounter j s).rsp = s.rsp := rfl

/-! `clear` (R133). -/

@[simp] theorem clearHash_st (s : State) : (clearHash s).st = s.st := rfl
@[simp] theorem clearHash_ks (s : State) : (clearHash s).ks = s.ks := rfl
@[simp] theorem clearHash_h (s : State) : (clearHash s).h = s.h := rfl
@[simp] theorem clearHash_j0 (s : State) : (clearHash s).j0 = s.j0 := rfl
@[simp] theorem clearHash_cb (s : State) : (clearHash s).cb = s.cb := rfl
@[simp] theorem clearHash_ksb (s : State) : (clearHash s).ksb = s.ksb := rfl
@[simp] theorem clearHash_y (s : State) : (clearHash s).y = 0 := rfl
@[simp] theorem clearHash_buf (s : State) : (clearHash s).buf = 0 := rfl
@[simp] theorem clearHash_aadLen (s : State) : (clearHash s).aadLen = s.aadLen := rfl
@[simp] theorem clearHash_dataLen (s : State) : (clearHash s).dataLen = s.dataLen := rfl
@[simp] theorem clearHash_code (s : State) : (clearHash s).code = s.code := rfl
@[simp] theorem clearHash_cmd (s : State) : (clearHash s).cmd = s.cmd := rfl
@[simp] theorem clearHash_rsp (s : State) : (clearHash s).rsp = s.rsp := rfl

/-! `next` (R154). -/

@[simp] theorem nextKeystream_st (c : Cipher) (s : State) : (nextKeystream c s).st = s.st := rfl
@[simp] theorem nextKeystream_ks (c : Cipher) (s : State) : (nextKeystream c s).ks = s.ks := rfl
@[simp] theorem nextKeystream_h (c : Cipher) (s : State) : (nextKeystream c s).h = s.h := rfl
@[simp] theorem nextKeystream_j0 (c : Cipher) (s : State) : (nextKeystream c s).j0 = s.j0 := rfl
@[simp] theorem nextKeystream_cb (c : Cipher) (s : State) : (nextKeystream c s).cb = inc32 s.cb := rfl
@[simp] theorem nextKeystream_ksb (c : Cipher) (s : State) : (nextKeystream c s).ksb = encrypt c s.ks (inc32 s.cb) := rfl
@[simp] theorem nextKeystream_y (c : Cipher) (s : State) : (nextKeystream c s).y = s.y := rfl
@[simp] theorem nextKeystream_buf (c : Cipher) (s : State) : (nextKeystream c s).buf = s.buf := rfl
@[simp] theorem nextKeystream_aadLen (c : Cipher) (s : State) : (nextKeystream c s).aadLen = s.aadLen := rfl
@[simp] theorem nextKeystream_dataLen (c : Cipher) (s : State) : (nextKeystream c s).dataLen = s.dataLen := rfl
@[simp] theorem nextKeystream_code (c : Cipher) (s : State) : (nextKeystream c s).code = s.code := rfl
@[simp] theorem nextKeystream_cmd (c : Cipher) (s : State) : (nextKeystream c s).cmd = s.cmd := rfl
@[simp] theorem nextKeystream_rsp (c : Cipher) (s : State) : (nextKeystream c s).rsp = s.rsp := rfl

/-! Taking a packet (R61). -/

@[simp] theorem takePacket_st (rest : Bytes) (s : State) : (takePacket rest s).st = s.st := rfl
@[simp] theorem takePacket_ks (rest : Bytes) (s : State) : (takePacket rest s).ks = s.ks := rfl
@[simp] theorem takePacket_h (rest : Bytes) (s : State) : (takePacket rest s).h = s.h := rfl
@[simp] theorem takePacket_j0 (rest : Bytes) (s : State) : (takePacket rest s).j0 = s.j0 := rfl
@[simp] theorem takePacket_cb (rest : Bytes) (s : State) : (takePacket rest s).cb = s.cb := rfl
@[simp] theorem takePacket_ksb (rest : Bytes) (s : State) : (takePacket rest s).ksb = s.ksb := rfl
@[simp] theorem takePacket_y (rest : Bytes) (s : State) : (takePacket rest s).y = s.y := rfl
@[simp] theorem takePacket_buf (rest : Bytes) (s : State) : (takePacket rest s).buf = s.buf := rfl
@[simp] theorem takePacket_aadLen (rest : Bytes) (s : State) : (takePacket rest s).aadLen = s.aadLen := rfl
@[simp] theorem takePacket_dataLen (rest : Bytes) (s : State) : (takePacket rest s).dataLen = s.dataLen := rfl
@[simp] theorem takePacket_code (rest : Bytes) (s : State) : (takePacket rest s).code = s.code := rfl
@[simp] theorem takePacket_cmd (rest : Bytes) (s : State) : (takePacket rest s).cmd = rest := rfl
@[simp] theorem takePacket_rsp (rest : Bytes) (s : State) : (takePacket rest s).rsp = s.rsp := rfl

/-! Sending bytes (R60). -/

@[simp] theorem hostSend_st (bytes : Bytes) (s : State) : (hostSend bytes s).st = s.st := rfl
@[simp] theorem hostSend_ks (bytes : Bytes) (s : State) : (hostSend bytes s).ks = s.ks := rfl
@[simp] theorem hostSend_h (bytes : Bytes) (s : State) : (hostSend bytes s).h = s.h := rfl
@[simp] theorem hostSend_j0 (bytes : Bytes) (s : State) : (hostSend bytes s).j0 = s.j0 := rfl
@[simp] theorem hostSend_cb (bytes : Bytes) (s : State) : (hostSend bytes s).cb = s.cb := rfl
@[simp] theorem hostSend_ksb (bytes : Bytes) (s : State) : (hostSend bytes s).ksb = s.ksb := rfl
@[simp] theorem hostSend_y (bytes : Bytes) (s : State) : (hostSend bytes s).y = s.y := rfl
@[simp] theorem hostSend_buf (bytes : Bytes) (s : State) : (hostSend bytes s).buf = s.buf := rfl
@[simp] theorem hostSend_aadLen (bytes : Bytes) (s : State) : (hostSend bytes s).aadLen = s.aadLen := rfl
@[simp] theorem hostSend_dataLen (bytes : Bytes) (s : State) : (hostSend bytes s).dataLen = s.dataLen := rfl
@[simp] theorem hostSend_code (bytes : Bytes) (s : State) : (hostSend bytes s).code = s.code := rfl
@[simp] theorem hostSend_cmd (bytes : Bytes) (s : State) : (hostSend bytes s).cmd = s.cmd ++ bytes := rfl
@[simp] theorem hostSend_rsp (bytes : Bytes) (s : State) : (hostSend bytes s).rsp = s.rsp := rfl

/-! An accepted START (R193). -/

@[simp] theorem startEffect_st (iv aad : Bytes) (s : State) : (startEffect iv aad s).st = .active := rfl
@[simp] theorem startEffect_ks (iv aad : Bytes) (s : State) : (startEffect iv aad s).ks = s.ks := rfl
@[simp] theorem startEffect_h (iv aad : Bytes) (s : State) : (startEffect iv aad s).h = s.h := rfl
@[simp] theorem startEffect_j0 (iv aad : Bytes) (s : State) : (startEffect iv aad s).j0 = deriveJ0 s.h iv := rfl
@[simp] theorem startEffect_cb (iv aad : Bytes) (s : State) : (startEffect iv aad s).cb = deriveJ0 s.h iv := rfl
@[simp] theorem startEffect_ksb (iv aad : Bytes) (s : State) : (startEffect iv aad s).ksb = 0 := rfl
@[simp] theorem startEffect_y (iv aad : Bytes) (s : State) : (startEffect iv aad s).y = absorb 0 aad s.h := rfl
@[simp] theorem startEffect_buf (iv aad : Bytes) (s : State) : (startEffect iv aad s).buf = 0 := rfl
@[simp] theorem startEffect_aadLen (iv aad : Bytes) (s : State) : (startEffect iv aad s).aadLen = BitVec.ofNat 64 aad.length := rfl
@[simp] theorem startEffect_dataLen (iv aad : Bytes) (s : State) : (startEffect iv aad s).dataLen = 0 := rfl
@[simp] theorem startEffect_code (iv aad : Bytes) (s : State) : (startEffect iv aad s).code = s.code := rfl
@[simp] theorem startEffect_cmd (iv aad : Bytes) (s : State) : (startEffect iv aad s).cmd = s.cmd := rfl
@[simp] theorem startEffect_rsp (iv aad : Bytes) (s : State) : (startEffect iv aad s).rsp = s.rsp := rfl

/-! One ciphertext byte into the partial block (R134): `Y` and `BUF` alone may change. -/

@[simp] theorem absorbByte_st (c : Byte) (p : Nat) (s : State) : (absorbByte c p s).st = s.st := by
  simp only [absorbByte]; split <;> rfl
@[simp] theorem absorbByte_ks (c : Byte) (p : Nat) (s : State) : (absorbByte c p s).ks = s.ks := by
  simp only [absorbByte]; split <;> rfl
@[simp] theorem absorbByte_h (c : Byte) (p : Nat) (s : State) : (absorbByte c p s).h = s.h := by
  simp only [absorbByte]; split <;> rfl
@[simp] theorem absorbByte_j0 (c : Byte) (p : Nat) (s : State) : (absorbByte c p s).j0 = s.j0 := by
  simp only [absorbByte]; split <;> rfl
@[simp] theorem absorbByte_cb (c : Byte) (p : Nat) (s : State) : (absorbByte c p s).cb = s.cb := by
  simp only [absorbByte]; split <;> rfl
@[simp] theorem absorbByte_ksb (c : Byte) (p : Nat) (s : State) : (absorbByte c p s).ksb = s.ksb := by
  simp only [absorbByte]; split <;> rfl
@[simp] theorem absorbByte_aadLen (c : Byte) (p : Nat) (s : State) : (absorbByte c p s).aadLen = s.aadLen := by
  simp only [absorbByte]; split <;> rfl
@[simp] theorem absorbByte_dataLen (c : Byte) (p : Nat) (s : State) : (absorbByte c p s).dataLen = s.dataLen := by
  simp only [absorbByte]; split <;> rfl
@[simp] theorem absorbByte_code (c : Byte) (p : Nat) (s : State) : (absorbByte c p s).code = s.code := by
  simp only [absorbByte]; split <;> rfl
@[simp] theorem absorbByte_cmd (c : Byte) (p : Nat) (s : State) : (absorbByte c p s).cmd = s.cmd := by
  simp only [absorbByte]; split <;> rfl
@[simp] theorem absorbByte_rsp (c : Byte) (p : Nat) (s : State) : (absorbByte c p s).rsp = s.rsp := by
  simp only [absorbByte]; split <;> rfl

/-! The final partial block (R135): `Y` and `BUF` alone may change. -/

@[simp] theorem flush_st (p : Nat) (s : State) : (flush p s).st = s.st := by
  simp only [flush]; split <;> rfl
@[simp] theorem flush_ks (p : Nat) (s : State) : (flush p s).ks = s.ks := by
  simp only [flush]; split <;> rfl
@[simp] theorem flush_h (p : Nat) (s : State) : (flush p s).h = s.h := by
  simp only [flush]; split <;> rfl
@[simp] theorem flush_j0 (p : Nat) (s : State) : (flush p s).j0 = s.j0 := by
  simp only [flush]; split <;> rfl
@[simp] theorem flush_cb (p : Nat) (s : State) : (flush p s).cb = s.cb := by
  simp only [flush]; split <;> rfl
@[simp] theorem flush_ksb (p : Nat) (s : State) : (flush p s).ksb = s.ksb := by
  simp only [flush]; split <;> rfl
@[simp] theorem flush_aadLen (p : Nat) (s : State) : (flush p s).aadLen = s.aadLen := by
  simp only [flush]; split <;> rfl
@[simp] theorem flush_dataLen (p : Nat) (s : State) : (flush p s).dataLen = s.dataLen := by
  simp only [flush]; split <;> rfl
@[simp] theorem flush_code (p : Nat) (s : State) : (flush p s).code = s.code := by
  simp only [flush]; split <;> rfl
@[simp] theorem flush_cmd (p : Nat) (s : State) : (flush p s).cmd = s.cmd := by
  simp only [flush]; split <;> rfl
@[simp] theorem flush_rsp (p : Nat) (s : State) : (flush p s).rsp = s.rsp := by
  simp only [flush]; split <;> rfl

/-! The final hash (R175): `Y` and `BUF` alone may change. -/

@[simp] theorem finalHash_st (s : State) : (finalHash s).st = s.st := by
  simp [finalHash]
@[simp] theorem finalHash_ks (s : State) : (finalHash s).ks = s.ks := by
  simp [finalHash]
@[simp] theorem finalHash_h (s : State) : (finalHash s).h = s.h := by
  simp [finalHash]
@[simp] theorem finalHash_j0 (s : State) : (finalHash s).j0 = s.j0 := by
  simp [finalHash]
@[simp] theorem finalHash_cb (s : State) : (finalHash s).cb = s.cb := by
  simp [finalHash]
@[simp] theorem finalHash_ksb (s : State) : (finalHash s).ksb = s.ksb := by
  simp [finalHash]
@[simp] theorem finalHash_aadLen (s : State) : (finalHash s).aadLen = s.aadLen := by
  simp [finalHash]
@[simp] theorem finalHash_dataLen (s : State) : (finalHash s).dataLen = s.dataLen := by
  simp [finalHash]
@[simp] theorem finalHash_code (s : State) : (finalHash s).code = s.code := by
  simp [finalHash]
@[simp] theorem finalHash_cmd (s : State) : (finalHash s).cmd = s.cmd := by
  simp [finalHash]
@[simp] theorem finalHash_rsp (s : State) : (finalHash s).rsp = s.rsp := by
  simp [finalHash]

theorem finalHash_y (s : State) : (finalHash s).y =
    foldBlock (flush (s.dataLen.toNat % 16) s).y (lenBlock s.aadLen.toNat s.dataLen.toNat) s.h := by
  simp [finalHash]

/-! The closing of a message (R197). -/

@[simp] theorem finishEffect_st (c : Cipher) (taglen : BitVec 8) (s : State) :
    (finishEffect c taglen s).1.st = .finished := by
  simp [finishEffect]
@[simp] theorem finishEffect_ks (c : Cipher) (taglen : BitVec 8) (s : State) :
    (finishEffect c taglen s).1.ks = s.ks := by
  simp [finishEffect]
@[simp] theorem finishEffect_h (c : Cipher) (taglen : BitVec 8) (s : State) :
    (finishEffect c taglen s).1.h = s.h := by
  simp [finishEffect]
@[simp] theorem finishEffect_j0 (c : Cipher) (taglen : BitVec 8) (s : State) :
    (finishEffect c taglen s).1.j0 = 0 := by
  simp [finishEffect]
@[simp] theorem finishEffect_cb (c : Cipher) (taglen : BitVec 8) (s : State) :
    (finishEffect c taglen s).1.cb = 0 := by
  simp [finishEffect]
@[simp] theorem finishEffect_ksb (c : Cipher) (taglen : BitVec 8) (s : State) :
    (finishEffect c taglen s).1.ksb = 0 := by
  simp [finishEffect]
@[simp] theorem finishEffect_y (c : Cipher) (taglen : BitVec 8) (s : State) :
    (finishEffect c taglen s).1.y = 0 := by
  simp [finishEffect]
@[simp] theorem finishEffect_buf (c : Cipher) (taglen : BitVec 8) (s : State) :
    (finishEffect c taglen s).1.buf = 0 := by
  simp [finishEffect]
@[simp] theorem finishEffect_aadLen (c : Cipher) (taglen : BitVec 8) (s : State) :
    (finishEffect c taglen s).1.aadLen = 0 := by
  simp [finishEffect]
@[simp] theorem finishEffect_dataLen (c : Cipher) (taglen : BitVec 8) (s : State) :
    (finishEffect c taglen s).1.dataLen = 0 := by
  simp [finishEffect]
@[simp] theorem finishEffect_code (c : Cipher) (taglen : BitVec 8) (s : State) :
    (finishEffect c taglen s).1.code = s.code := by
  simp [finishEffect]
@[simp] theorem finishEffect_cmd (c : Cipher) (taglen : BitVec 8) (s : State) :
    (finishEffect c taglen s).1.cmd = s.cmd := by
  simp [finishEffect]
@[simp] theorem finishEffect_rsp (c : Cipher) (taglen : BitVec 8) (s : State) :
    (finishEffect c taglen s).1.rsp = s.rsp := by
  simp [finishEffect]

theorem finishEffect_tag (c : Cipher) (taglen : BitVec 8) (s : State) :
    (finishEffect c taglen s).2 = msb (maskTag c s.ks s.j0 (finalHash s).y) taglen.toNat := by
  simp [finishEffect]

/-- Reset forgets everything (R260). -/
theorem resetInstance_eq (s : State) : resetInstance s = { resetRegisters s with code := 0, cmd := [], rsp := [] } := rfl

end Sys2Proof.Machine
end

