-- ==== Sys2Proof/Laws/Ghash.lean ====
section
/-! SUPPORT. Sys2Proof/Laws/Ghash.lean: how a byte string is cut into blocks and folded, and what one byte does to the partial block
(R131 to R135). -/

namespace Sys2Proof.Machine

@[simp] theorem absorb_nil (y h : Block) : absorb y [] h = y := rfl

/-- A string of whole blocks is its own padding (R19). -/
theorem pad16_of_dvd (b : Bytes) (h : 16 ∣ b.length) : pad16 b = b := by
  have e : (16 - b.length % 16) % 16 = 0 := by omega
  simp [pad16, e]

/-- Padding leaves whole blocks at the front alone (R19). -/
theorem pad16_append (a b : Bytes) (h : 16 ∣ a.length) : pad16 (a ++ b) = a ++ pad16 b := by
  have e : (a.length + b.length) % 16 = b.length % 16 := by omega
  simp [pad16, e]

/-- A non-empty string of at most one block is padded to one block (R19). -/
theorem pad16_short (b : Bytes) (h1 : 0 < b.length) (h2 : b.length ≤ 16) : pad16 b = b ++ zeros (16 - b.length) := by
  have e : (16 - b.length % 16) % 16 = 16 - b.length := by omega
  simp [pad16, e]

theorem takeBlocks_append (n : Nat) (a b : Bytes) (h : a.length = 16 * n) (m : Nat) :
    takeBlocks (n + m) (a ++ b) = takeBlocks n a ++ takeBlocks m b := by
  induction n generalizing a with
  | zero =>
    have : a = [] := List.length_eq_zero_iff.1 (by omega)
    subst this
    simp [takeBlocks]
  | succ n ih =>
    have e1 : (a ++ b).take 16 = a.take 16 := List.take_append_of_le_length (by omega)
    have e2 : (a ++ b).drop 16 = a.drop 16 ++ b := List.drop_append_of_le_length (by omega)
    rw [show n + 1 + m = (n + m) + 1 by omega]
    simp only [takeBlocks, e1, e2, List.cons_append]
    rw [ih (a.drop 16) (by simp; omega)]

/-- The blocks of whole blocks followed by a string (R19). -/
theorem blocks_append (a b : Bytes) (h : 16 ∣ a.length) : blocks (a ++ b) = blocks a ++ blocks b := by
  obtain ⟨n, hn⟩ := h
  have e1 : (a ++ b).length / 16 = n + b.length / 16 := by simp only [List.length_append]; omega
  have e2 : a.length / 16 = n := by omega
  rw [blocks, blocks, blocks, e1, e2, takeBlocks_append n a b hn]

/-- The hash of whole blocks followed by a string (R132). -/
theorem absorb_append (y : Block) (a b : Bytes) (h : Block) (ha : 16 ∣ a.length) :
    absorb y (a ++ b) h = absorb (absorb y a h) b h := by
  simp only [absorb, pad16_append a b ha, pad16_of_dvd a ha, blocks_append a _ ha, List.foldl_append]

/-- The hash of a string of at most one block: one fold of the padded string (R132). -/
theorem absorb_short (y : Block) (b : Bytes) (h : Block) (h1 : 0 < b.length) (h2 : b.length ≤ 16) :
    absorb y b h = foldBlock y (blk (b ++ zeros (16 - b.length))) h := by
  have e : (b ++ zeros (16 - b.length)).length = 16 := by simp; omega
  have e1 := blocks_cons (b ++ zeros (16 - b.length)) [] e
  simp only [List.append_nil, blocks_nil] at e1
  rw [absorb, pad16_short b h1 h2, e1]
  rfl

theorem blk_zeros : blk (zeros 16) = 0 := by decide

/-- A byte put at the first free position of a padded partial block (R17, R134). -/
theorem setByte_partial (part : Bytes) (c : Byte) (h : part.length < 16) :
    setByte (blk (part ++ zeros (16 - part.length))) part.length c =
      blk (part ++ [c] ++ zeros (15 - part.length)) := by
  apply block_ext
  intro q hq
  have l1 : (part ++ zeros (16 - part.length)).length = 16 := by simp; omega
  have l2 : (part ++ [c] ++ zeros (15 - part.length)).length = 16 := by simp; omega
  rw [getByte_setByte _ _ _ _ h hq, getByte_blk _ l1 q (by omega), getByte_blk _ l2 q (by omega)]
  split
  · next e => subst e; simp
  · next e =>
    by_cases hlt : q < part.length
    · simp [List.getElem_append_left, hlt]
    · have g1 : part.length ≤ q := by omega
      have g2 : (part ++ [c]).length ≤ q := by simp; omega
      rw [List.getElem_append_right g1, List.getElem_append_right g2]
      simp [zeros]

/-- Everything one ciphertext byte does (R134). -/
theorem absorbByte_cases (c : Byte) (p : Nat) (s : State) :
    (p = 15 ∧ absorbByte c p s = { s with y := foldBlock s.y (setByte s.buf p c) s.h, buf := 0 }) ∨
    (p ≠ 15 ∧ absorbByte c p s = { s with buf := setByte s.buf p c }) := by
  unfold absorbByte
  by_cases hp : p = 15 <;> simp [hp]

/-- Everything the flush of the partial block does (R135). -/
theorem flush_cases (p : Nat) (s : State) :
    (p = 0 ∧ flush p s = s) ∨ (p ≠ 0 ∧ flush p s = { s with y := foldBlock s.y s.buf s.h, buf := 0 }) := by
  unfold flush
  by_cases hp : p = 0 <;> simp [hp]

end Sys2Proof.Machine
end

