-- ==== Sys2Proof/Laws/PerInstr.lean ====
section
/-! SUPPORT. Sys2Proof/Laws/PerInstr.lean: what holds of every command as syntax, one lemma per constructor. -/

namespace Sys2Proof.Laws

open Sys2Proof.Machine

/-- The length of a command's packet is `24 + LEN_A + LEN_B`, both lengths as its descriptor holds them (R83), when the command
is well-formed. -/
def PacketLength.Statement (i : Instr) : Prop :=
  i.wf = true → (encode i).length = 24 + (lenAField i.descriptor).toNat + (lenBField i.descriptor).toNat

/-- A length that fits its 61-bit field is what the field holds (R12). -/
theorem packetLength_of_fits (i : Instr) (ha : i.opA.length < 2 ^ 61) (hb : i.opB.length < 2 ^ 61) :
    (encode i).length = 24 + (lenAField i.descriptor).toNat + (lenBField i.descriptor).toNat := by
  rw [descriptor_lenA, descriptor_lenB, BitVec.toNat_ofNat, BitVec.toNat_ofNat, Nat.mod_eq_of_lt ha, Nat.mod_eq_of_lt hb]
  simp only [encode, List.length_append, toBytesBE_length]

theorem PacketLength.init (key : Bytes) : PacketLength.Statement (.init key) := fun h =>
  packetLength_of_fits _ (by simpa [Instr.wf, operandFits, Instr.opA] using h) (by simp [Instr.opB])

theorem PacketLength.start (iv aad : Bytes) : PacketLength.Statement (.start iv aad) := fun h => by
  simp only [Instr.wf, operandFits, Bool.and_eq_true, decide_eq_true_eq] at h
  exact packetLength_of_fits _ h.1 h.2

theorem PacketLength.updateE (chunk : Bytes) : PacketLength.Statement (.updateE chunk) := fun h =>
  packetLength_of_fits _ (by simpa [Instr.wf, operandFits, Instr.opA] using h) (by simp [Instr.opB])

theorem PacketLength.updateD (chunk : Bytes) : PacketLength.Statement (.updateD chunk) := fun h =>
  packetLength_of_fits _ (by simpa [Instr.wf, operandFits, Instr.opA] using h) (by simp [Instr.opB])

theorem PacketLength.finishE (taglen : BitVec 8) : PacketLength.Statement (.finishE taglen) := fun _ =>
  packetLength_of_fits _ (by simp [Instr.opA]) (by simp [Instr.opB])

theorem PacketLength.finishD (taglen : BitVec 8) (tag : Bytes) : PacketLength.Statement (.finishD taglen tag) := fun h =>
  packetLength_of_fits _ (by simpa [Instr.wf, operandFits, Instr.opA] using h) (by simp [Instr.opB])

end Sys2Proof.Laws
end

