-- ==== Sys2Proof/Laws/Step.lean ====
section
/-! SUPPORT. Sys2Proof/Laws/Step.lean: everything a command, and a step, can do, said once (R190 to R199, R236). -/

namespace Sys2Proof.Machine

/-- Every command answers a next state: that of `commandFor` with the cipher of Config (R10, R191). -/
theorem exec_eq_commandFor (i : Instr) (s : State) : exec i s = .next (commandFor Config.cipher i s) := by
  cases i <;> rfl

/-- Raising an error that has no effect of its own changes `CODE` and the response stream (R236). -/
theorem raise_eq (e : Status) (s : State) (h1 : e ≠ .invalidKeyLength) (h2 : e ≠ .authenticationFailed) :
    raise e s = { s with code := e.number, rsp := s.rsp ++ responsePacket e.number s.st [] } := by
  cases e <;> first | rfl | contradiction

theorem raise_invalidKeyLength (s : State) : raise .invalidKeyLength s = respond .invalidKeyLength [] (resetRegisters s) := rfl

theorem raise_authenticationFailed (s : State) :
    raise .authenticationFailed s = respond .authenticationFailed [] { clearMessage s with st := .finished } := rfl

/-- Everything INIT can do (R192). -/
theorem initCommand_cases (c : Cipher) (key : Bytes) (s : State) :
    (initAccepts s.st = false ∧ initCommand c key s = raise .illegalSequence s) ∨
    (initAccepts s.st = true ∧ keySetup c key = none ∧ initCommand c key s = raise .invalidKeyLength s) ∨
    (∃ k, initAccepts s.st = true ∧ keySetup c key = some k ∧
      initCommand c key s = succeed [] { clearMessage s with ks := some k, h := encrypt c (some k) 0, st := .ready }) := by
  unfold initCommand
  cases h : initAccepts s.st
  · exact .inl ⟨rfl, by simp⟩
  · cases hk : keySetup c key with
    | none => exact .inr (.inl ⟨rfl, rfl, by simp⟩)
    | some k => exact .inr (.inr ⟨k, rfl, rfl, by simp⟩)

/-- Everything START can do (R193). -/
theorem startCommand_cases (iv aad : Bytes) (s : State) :
    (startAccepts s.st = false ∧ startCommand iv aad s = raise .illegalSequence s) ∨
    (startAccepts s.st = true ∧ iv = [] ∧ startCommand iv aad s = raise .invalidIVLength s) ∨
    (startAccepts s.st = true ∧ iv ≠ [] ∧ startCommand iv aad s = succeed [] (startEffect iv aad s)) := by
  unfold startCommand
  cases h : startAccepts s.st
  · exact .inl ⟨rfl, by simp⟩
  · cases iv with
    | nil => exact .inr (.inl ⟨rfl, rfl, by simp⟩)
    | cons x xs => exact .inr (.inr ⟨rfl, by simp, by simp⟩)

/-- Everything an UPDATE can do (R194). -/
theorem updateCommand_cases (c : Cipher) (dir : Dir) (chunk : Bytes) (s : State) :
    (updateAccepts s.st = false ∧ updateCommand c dir chunk s = raise .illegalSequence s) ∨
    (updateAccepts s.st = true ∧ dataFits s.dataLen chunk = false ∧
      updateCommand c dir chunk s = raise .plaintextTooLong s) ∨
    (updateAccepts s.st = true ∧ dataFits s.dataLen chunk = true ∧
      updateCommand c dir chunk s = succeed (updateLoop c dir chunk s).2 (updateLoop c dir chunk s).1) := by
  unfold updateCommand
  cases h : updateAccepts s.st
  · exact .inl ⟨rfl, by simp⟩
  · cases hd : dataFits s.dataLen chunk
    · exact .inr (.inl ⟨rfl, rfl, by simp⟩)
    · exact .inr (.inr ⟨rfl, rfl, by simp⟩)

/-- Everything the checks of FINISH can answer (R197, R239). -/
theorem finishCheck_cases (taglen : BitVec 8) (given : Option Nat) (s : State) :
    (finishAccepts s.st = false ∧ finishCheck taglen given s = some .illegalSequence) ∨
    (finishAccepts s.st = true ∧ (taglenOk taglen.toNat = false ∨ givenTagFits taglen given = false) ∧
      finishCheck taglen given s = some .invalidTagLength) ∨
    (finishAccepts s.st = true ∧ taglenOk taglen.toNat = true ∧ givenTagFits taglen given = true ∧
      finishCheck taglen given s = none) := by
  unfold finishCheck
  cases finishAccepts s.st <;> cases taglenOk taglen.toNat <;> cases givenTagFits taglen given <;> simp

/-- Everything FINISH.E can do (R198). -/
theorem finishECommand_cases (c : Cipher) (taglen : BitVec 8) (s : State) :
    (finishAccepts s.st = false ∧ finishECommand c taglen s = raise .illegalSequence s) ∨
    (finishAccepts s.st = true ∧ taglenOk taglen.toNat = false ∧ finishECommand c taglen s = raise .invalidTagLength s) ∨
    (finishAccepts s.st = true ∧ taglenOk taglen.toNat = true ∧
      finishECommand c taglen s = succeed (finishEffect c taglen s).2 (finishEffect c taglen s).1) := by
  unfold finishECommand
  rcases finishCheck_cases taglen none s with ⟨h1, h2⟩ | ⟨h1, h2, h3⟩ | ⟨h1, h2, -, h3⟩
  · exact .inl ⟨h1, by rw [h2]⟩
  · exact .inr (.inl ⟨h1, by simpa [givenTagFits] using h2, by rw [h3]⟩)
  · exact .inr (.inr ⟨h1, h2, by rw [h3]⟩)

/-- Everything FINISH.D can do (R199). -/
theorem finishDCommand_cases (c : Cipher) (taglen : BitVec 8) (tag : Bytes) (s : State) :
    (finishAccepts s.st = false ∧ finishDCommand c taglen tag s = raise .illegalSequence s) ∨
    (finishAccepts s.st = true ∧ (taglenOk taglen.toNat = false ∨ tag.length ≠ taglen.toNat / 8) ∧
      finishDCommand c taglen tag s = raise .invalidTagLength s) ∨
    (finishAccepts s.st = true ∧ taglenOk taglen.toNat = true ∧ tag.length = taglen.toNat / 8 ∧
      finishDCommand c taglen tag s =
        if ctEq (finishEffect c taglen s).2 tag then succeed [] (finishEffect c taglen s).1
        else raise .authenticationFailed (finishEffect c taglen s).1) := by
  unfold finishDCommand
  rcases finishCheck_cases taglen (some tag.length) s with ⟨h1, h2⟩ | ⟨h1, h2, h3⟩ | ⟨h1, h2, h4, h3⟩
  · exact .inl ⟨h1, by rw [h2]⟩
  · exact .inr (.inl ⟨h1, by simpa [givenTagFits] using h2, by rw [h3]⟩)
  · exact .inr (.inr ⟨h1, h2, by simpa [givenTagFits] using h4, by rw [h3]⟩)

/-- Everything a step with a next state can be: a packet that is not well-formed answered, or a command executed (R61, R191). -/
theorem step_cases {s t : State} (h : step s = .next t) :
    (∃ why rest, decode s.cmd = .illegal why rest ∧ t = illegalPacket rest s) ∨
    (∃ i rest, decode s.cmd = .command i rest ∧ t = commandFor Config.cipher i (takePacket rest s)) := by
  unfold step at h
  split at h
  · cases h
  · cases h
  · next why rest hd => exact .inl ⟨why, rest, hd, by injection h with h; exact h.symm⟩
  · next i rest hd =>
    rw [exec_eq_commandFor] at h
    exact .inr ⟨i, rest, hd, by injection h with h; exact h.symm⟩

end Sys2Proof.Machine
end

