-- ==== Sys2Proof/Laws/Update.lean ====
section
/-! SUPPORT. Sys2Proof/Laws/Update.lean: what one byte of UPDATE, and the whole loop, leave alone and what they give (R194). -/

namespace Sys2Proof.Machine

/-- The state in which a data byte is processed: at offset 0 of a block the keystream has moved on (R154, R194). -/
def beginByte (c : Cipher) (s : State) : State := if s.dataLen.toNat % 16 = 0 then nextKeystream c s else s

@[simp] theorem beginByte_st (c : Cipher) (s : State) : (beginByte c s).st = s.st := by
  simp only [beginByte]; split <;> rfl
@[simp] theorem beginByte_ks (c : Cipher) (s : State) : (beginByte c s).ks = s.ks := by
  simp only [beginByte]; split <;> rfl
@[simp] theorem beginByte_h (c : Cipher) (s : State) : (beginByte c s).h = s.h := by
  simp only [beginByte]; split <;> rfl
@[simp] theorem beginByte_j0 (c : Cipher) (s : State) : (beginByte c s).j0 = s.j0 := by
  simp only [beginByte]; split <;> rfl
@[simp] theorem beginByte_aadLen (c : Cipher) (s : State) : (beginByte c s).aadLen = s.aadLen := by
  simp only [beginByte]; split <;> rfl
@[simp] theorem beginByte_code (c : Cipher) (s : State) : (beginByte c s).code = s.code := by
  simp only [beginByte]; split <;> rfl
@[simp] theorem beginByte_cmd (c : Cipher) (s : State) : (beginByte c s).cmd = s.cmd := by
  simp only [beginByte]; split <;> rfl
@[simp] theorem beginByte_rsp (c : Cipher) (s : State) : (beginByte c s).rsp = s.rsp := by
  simp only [beginByte]; split <;> rfl
@[simp] theorem beginByte_y (c : Cipher) (s : State) : (beginByte c s).y = s.y := by
  simp only [beginByte]; split <;> rfl
@[simp] theorem beginByte_buf (c : Cipher) (s : State) : (beginByte c s).buf = s.buf := by
  simp only [beginByte]; split <;> rfl
@[simp] theorem beginByte_dataLen (c : Cipher) (s : State) : (beginByte c s).dataLen = s.dataLen := by
  simp only [beginByte]; split <;> rfl

/-- The output byte (R155). -/
theorem updateByte_out (c : Cipher) (dir : Dir) (b : Byte) (s : State) :
    (updateByte c dir b s).2 = b ^^^ getByte (beginByte c s).ksb (s.dataLen.toNat % 16) := rfl

/-- The state after one byte: the partial block takes the ciphertext byte, the byte counter steps (R194). -/
theorem updateByte_state (c : Cipher) (dir : Dir) (b : Byte) (s : State) :
    (updateByte c dir b s).1 =
      { absorbByte (cipherByte dir b (updateByte c dir b s).2) (s.dataLen.toNat % 16) (beginByte c s) with
        dataLen := s.dataLen + 1 } := by
  simp [updateByte, beginByte]; split <;> rfl

@[simp] theorem updateByte_dataLen (c : Cipher) (dir : Dir) (b : Byte) (s : State) :
    (updateByte c dir b s).1.dataLen = s.dataLen + 1 := by
  simp [updateByte_state]

theorem updateByte_cb (c : Cipher) (dir : Dir) (b : Byte) (s : State) :
    (updateByte c dir b s).1.cb = (beginByte c s).cb := by
  simp [updateByte_state]

theorem updateByte_ksb (c : Cipher) (dir : Dir) (b : Byte) (s : State) :
    (updateByte c dir b s).1.ksb = (beginByte c s).ksb := by
  simp [updateByte_state]

@[simp] theorem updateByte_st (c : Cipher) (dir : Dir) (b : Byte) (s : State) :
    (updateByte c dir b s).1.st = s.st := by
  simp [updateByte_state]
@[simp] theorem updateByte_ks (c : Cipher) (dir : Dir) (b : Byte) (s : State) :
    (updateByte c dir b s).1.ks = s.ks := by
  simp [updateByte_state]
@[simp] theorem updateByte_h (c : Cipher) (dir : Dir) (b : Byte) (s : State) :
    (updateByte c dir b s).1.h = s.h := by
  simp [updateByte_state]
@[simp] theorem updateByte_j0 (c : Cipher) (dir : Dir) (b : Byte) (s : State) :
    (updateByte c dir b s).1.j0 = s.j0 := by
  simp [updateByte_state]
@[simp] theorem updateByte_aadLen (c : Cipher) (dir : Dir) (b : Byte) (s : State) :
    (updateByte c dir b s).1.aadLen = s.aadLen := by
  simp [updateByte_state]
@[simp] theorem updateByte_code (c : Cipher) (dir : Dir) (b : Byte) (s : State) :
    (updateByte c dir b s).1.code = s.code := by
  simp [updateByte_state]
@[simp] theorem updateByte_cmd (c : Cipher) (dir : Dir) (b : Byte) (s : State) :
    (updateByte c dir b s).1.cmd = s.cmd := by
  simp [updateByte_state]
@[simp] theorem updateByte_rsp (c : Cipher) (dir : Dir) (b : Byte) (s : State) :
    (updateByte c dir b s).1.rsp = s.rsp := by
  simp [updateByte_state]

@[simp] theorem updateLoop_nil (c : Cipher) (dir : Dir) (s : State) : updateLoop c dir [] s = (s, []) := rfl

theorem updateLoop_cons (c : Cipher) (dir : Dir) (b : Byte) (bs : Bytes) (s : State) :
    updateLoop c dir (b :: bs) s =
      ((updateLoop c dir bs (updateByte c dir b s).1).1,
       (updateByte c dir b s).2 :: (updateLoop c dir bs (updateByte c dir b s).1).2) := rfl

@[simp] theorem updateLoop_st (c : Cipher) (dir : Dir) (chunk : Bytes) (s : State) :
    (updateLoop c dir chunk s).1.st = s.st := by
  induction chunk generalizing s with
  | nil => rfl
  | cons b bs ih => simp [updateLoop_cons, ih]
@[simp] theorem updateLoop_ks (c : Cipher) (dir : Dir) (chunk : Bytes) (s : State) :
    (updateLoop c dir chunk s).1.ks = s.ks := by
  induction chunk generalizing s with
  | nil => rfl
  | cons b bs ih => simp [updateLoop_cons, ih]
@[simp] theorem updateLoop_h (c : Cipher) (dir : Dir) (chunk : Bytes) (s : State) :
    (updateLoop c dir chunk s).1.h = s.h := by
  induction chunk generalizing s with
  | nil => rfl
  | cons b bs ih => simp [updateLoop_cons, ih]
@[simp] theorem updateLoop_j0 (c : Cipher) (dir : Dir) (chunk : Bytes) (s : State) :
    (updateLoop c dir chunk s).1.j0 = s.j0 := by
  induction chunk generalizing s with
  | nil => rfl
  | cons b bs ih => simp [updateLoop_cons, ih]
@[simp] theorem updateLoop_aadLen (c : Cipher) (dir : Dir) (chunk : Bytes) (s : State) :
    (updateLoop c dir chunk s).1.aadLen = s.aadLen := by
  induction chunk generalizing s with
  | nil => rfl
  | cons b bs ih => simp [updateLoop_cons, ih]
@[simp] theorem updateLoop_code (c : Cipher) (dir : Dir) (chunk : Bytes) (s : State) :
    (updateLoop c dir chunk s).1.code = s.code := by
  induction chunk generalizing s with
  | nil => rfl
  | cons b bs ih => simp [updateLoop_cons, ih]
@[simp] theorem updateLoop_cmd (c : Cipher) (dir : Dir) (chunk : Bytes) (s : State) :
    (updateLoop c dir chunk s).1.cmd = s.cmd := by
  induction chunk generalizing s with
  | nil => rfl
  | cons b bs ih => simp [updateLoop_cons, ih]
@[simp] theorem updateLoop_rsp (c : Cipher) (dir : Dir) (chunk : Bytes) (s : State) :
    (updateLoop c dir chunk s).1.rsp = s.rsp := by
  induction chunk generalizing s with
  | nil => rfl
  | cons b bs ih => simp [updateLoop_cons, ih]

/-- One output byte per input byte (R90). -/
@[simp] theorem updateLoop_out_length (c : Cipher) (dir : Dir) (chunk : Bytes) (s : State) :
    (updateLoop c dir chunk s).2.length = chunk.length := by
  induction chunk generalizing s with
  | nil => rfl
  | cons b bs ih => simp [updateLoop_cons, ih]

@[simp] theorem updateLoop_dataLen (c : Cipher) (dir : Dir) (chunk : Bytes) (s : State) :
    (updateLoop c dir chunk s).1.dataLen = s.dataLen + BitVec.ofNat 64 chunk.length := by
  induction chunk generalizing s with
  | nil => simp
  | cons b bs ih =>
    simp only [updateLoop_cons, ih, updateByte_dataLen, List.length_cons]
    apply BitVec.eq_of_toNat_eq
    have e1 : (1 : BitVec 64).toNat = 1 := rfl
    simp only [BitVec.toNat_add, BitVec.toNat_ofNat, e1]
    omega

/-- The loop over two chunks, one after the other, is the loop over the joined chunk (R194). -/
theorem updateLoop_append (c : Cipher) (dir : Dir) (a b : Bytes) (s : State) :
    updateLoop c dir (a ++ b) s =
      ((updateLoop c dir b (updateLoop c dir a s).1).1,
       (updateLoop c dir a s).2 ++ (updateLoop c dir b (updateLoop c dir a s).1).2) := by
  induction a generalizing s with
  | nil => rfl
  | cons x xs ih => simp only [List.cons_append, updateLoop_cons, ih]

end Sys2Proof.Machine
end

