-- ==== Sys2Proof/Tests/Slice0.lean ====
section
/-! SUPPORT. Sys2Proof/Tests/Slice0.lean: the model's own tests. Every expected value stands in spec/ (the rule or the vector is named). -/

namespace Sys2Proof.Tests

-- One test after another: tests that close in the kernel would otherwise each hold a thread while they wait for the rest.
set_option Elab.async false

open Sys2Proof.Machine

/-! ## WellFormed: an ill-formed term for each check (R12) -/

theorem test_wf_refuses_long_key : (Instr.init (zeros (2 ^ 61))).wf = false := by simp [Instr.wf, operandFits]
theorem test_wf_refuses_long_iv : (Instr.start (zeros (2 ^ 61)) []).wf = false := by simp [Instr.wf, operandFits]
theorem test_wf_refuses_long_aad : (Instr.start [] (zeros (2 ^ 61))).wf = false := by simp [Instr.wf, operandFits]
theorem test_wf_refuses_long_plaintext : (Instr.updateE (zeros (2 ^ 61))).wf = false := by simp [Instr.wf, operandFits]
theorem test_wf_refuses_long_ciphertext : (Instr.updateD (zeros (2 ^ 61))).wf = false := by simp [Instr.wf, operandFits]
theorem test_wf_refuses_long_tag : (Instr.finishD 128 (zeros (2 ^ 61))).wf = false := by simp [Instr.wf, operandFits]
theorem test_wf_accepts : (Instr.start [1] [2]).wf = true ∧ (Instr.finishE 255).wf = true := by decide

/-! ## Decode: packets written out byte by byte (R82, V7) -/

/-- A descriptor whose bytes are `b0`, `b1`, six zeros, and the two lengths in the last byte of W1 and of W2. -/
def head (b0 b1 lenA lenB : Byte) : Bytes :=
  [b0, b1, 0, 0, 0, 0, 0, 0, 0, 0, 0, 0, 0, 0, 0, lenA, 0, 0, 0, 0, 0, 0, 0, lenB]

theorem test_decode_init :
    decode (head 0x10 0 0x10 0 ++ [0, 1, 2, 3, 4, 5, 6, 7, 8, 9, 10, 11, 12, 13, 14, 15]) =
      .command (.init [0, 1, 2, 3, 4, 5, 6, 7, 8, 9, 10, 11, 12, 13, 14, 15]) [] := by decide +kernel
theorem test_decode_start :
    decode (head 0x20 0 3 2 ++ [0xaa, 0xbb, 0xcc, 0xdd, 0xee, 0x10]) =
      .command (.start [0xaa, 0xbb, 0xcc] [0xdd, 0xee]) [0x10] := by decide +kernel
theorem test_decode_updateE :
    decode (head 0x30 0 5 0 ++ [0xd9, 0x31, 0x32, 0x25, 0xf8]) = .command (.updateE [0xd9, 0x31, 0x32, 0x25, 0xf8]) [] := by
  decide +kernel
theorem test_decode_updateD : decode (head 0x38 0 0 0) = .command (.updateD []) [] := by decide +kernel
theorem test_decode_finishE : decode (head 0x40 0x60 0 0) = .command (.finishE 96) [] := by decide +kernel
theorem test_decode_finishE_odd : decode (head 0x40 0x21 0 0) = .command (.finishE 33) [] := by decide +kernel
theorem test_decode_finishD :
    decode (head 0x48 0x20 4 0 ++ [0x0b, 0x6b, 0x57, 0xdb]) = .command (.finishD 32 [0x0b, 0x6b, 0x57, 0xdb]) [] := by
  decide +kernel

/-- The example of R82: START with a 12-byte IV and 20 bytes of associated data. -/
theorem test_encode_start_head : (encode (.start (zeros 12) (zeros 20))).take 24 = head 0x20 0 0x0c 0x14 := by decide +kernel

/-! The packets V7 marks ILLEGAL; the operand bytes are consumed (R83). -/

theorem test_illegal_opcode_0 : decode (head 0 0 0 0) = .illegal .reservedOpcode [] := by decide +kernel
theorem test_illegal_opcode_15 :
    decode (head 0xf0 0 2 1 ++ [0xaa, 0xbb, 0xcc, 0x10]) = .illegal .reservedOpcode [0x10] := by decide +kernel
theorem test_illegal_init_dir : decode (head 0x18 0 1 0 ++ [7]) = .illegal .directionNotAllowed [] := by decide +kernel
theorem test_illegal_start_taglen : decode (head 0x20 1 1 0 ++ [0xaa]) = .illegal .taglenNotAllowed [] := by decide +kernel
theorem test_illegal_update_lenB :
    decode (head 0x30 0 1 1 ++ [0xaa, 0xbb]) = .illegal .operandBNotAllowed [] := by decide +kernel
theorem test_illegal_finishE_lenA : decode (head 0x40 0x80 1 0 ++ [0xaa]) = .illegal .operandANotAllowed [] := by decide +kernel
theorem test_illegal_rsv0 : decode (head 0x31 0 0 0) = .illegal .reservedBits [] := by decide +kernel
theorem test_illegal_rsv1 :
    decode ([0x30, 0, 0, 0, 0, 0, 0, 1] ++ [0, 0, 0, 0, 0, 0, 0, 2] ++ zeros 8 ++ [0xaa, 0xbb]) = .illegal .reservedBits [] := by
  decide +kernel
theorem test_illegal_rsv2 : decode ([0x30] ++ zeros 7 ++ [0x20] ++ zeros 15) = .illegal .reservedBits [] := by decide +kernel
theorem test_illegal_rsv3 : decode ([0x30] ++ zeros 15 ++ [0x80] ++ zeros 7) = .illegal .reservedBits [] := by decide +kernel
theorem test_truncated : decode ((head 0x30 0 2 0) ++ [0xaa]) = .truncated ∧ decode [0x30] = .truncated ∧ decode [] = .idle := by
  decide +kernel

/-! ## Units -/

/-- R112 and V1. -/
theorem test_gfMul_general :
    gfMul 0x0388dace60b6a392f328c2b971b2fe78 0x66e94bd4ef8a2c3b884cfa59ca342b2e = 0x5e2ec746917062882c85b0685353deb7 := by
  decide +kernel
/-- V1, the second multiplication of S1. -/
theorem test_gfMul_s1 :
    gfMul 0xae2082188a0269e01bcbdb23811d6c90 0xaff5ecc004de0c32aa2a8db6be4a8890 = 0xabc1b03aebec325bd7a782b4de43ee83 := by
  decide +kernel
/-- V2: 17 bytes fold two blocks. -/
theorem test_absorb_17 :
    absorb 0 [0, 1, 2, 3, 4, 5, 6, 7, 8, 9, 10, 11, 12, 13, 14, 15, 16] 0x66e94bd4ef8a2c3b884cfa59ca342b2e
      = 0x36db2e2a8ae937a3c33a938828ed89f2 := by decide +kernel
/-- V2, the largest representable operands. -/
theorem test_lenBlock_max : lenBlock (2 ^ 61 - 1) (2 ^ 36 - 32) = 0xfffffffffffffff80000007fffffff00 := by decide +kernel
/-- V3: the wrap does not reach the upper 96 bits. -/
theorem test_inc32_wraps : inc32 0xcafebabefacedbaddecaf888ffffffff = 0xcafebabefacedbaddecaf88800000000 := by decide +kernel
/-- V4 row 3 and row 1. -/
theorem test_deriveJ0 :
    deriveJ0 0xb83b533708bf535d0aa6e52980d53b78 [0xca, 0xfe, 0xba, 0xbe, 0xfa, 0xce, 0xdb, 0xad, 0xde, 0xca, 0xf8, 0x88]
      = 0xcafebabefacedbaddecaf88800000001 ∧
    deriveJ0 0xb83b533708bf535d0aa6e52980d53b78 [1] = 0xd04d539954afcba6c45d33779362c3c3 := by decide +kernel
/-- V5, truncation. -/
theorem test_msb : msb 0x42daaa33538e303df962452710e7bf16 40 = [0x42, 0xda, 0xaa, 0x33, 0x53] := by decide +kernel

/-! ## One command each, with the toy cipher XORKEY of spec/95_test_vectors.md section 3.4 (P4) -/

/-- XORKEY: `KEY_SIZES` is 16 alone, `KeySetup(key) = key`, `E(KS, B) = B xor blk(KS)`. -/
def xorkey : Cipher where
  keySizes := [16]
  expandKey key := ⟨key⟩
  encryptBlock k b := b ^^^ blk k.image
  unboundBlock b := b

/-- The key of P4. -/
def key4 : Bytes := [0, 1, 2, 3, 4, 5, 6, 7, 8, 9, 10, 11, 12, 13, 14, 15]

/-- The instance after step 1 of P4. -/
def ready4 : State :=
  { State.reset with st := .ready, ks := some ⟨key4⟩, h := 0x000102030405060708090a0b0c0d0e0f }

/-- The instance after step 2 of P4. -/
def active4 : State :=
  { ready4 with st := .active, j0 := 0xa0a1a2a3a4a5a6a7a8a9aaab00000001, cb := 0xa0a1a2a3a4a5a6a7a8a9aaab00000001,
                y := 0xe0209c40808100008182000080810000, aadLen := 3 }

/-- The instance after step 3 of P4. -/
def partial4 : State :=
  { active4 with cb := 0xa0a1a2a3a4a5a6a7a8a9aaab00000003, ksb := 0xa0a0a0a0a0a0a0a0a0a0a0a00c0d0e0c,
                 y := 0xdd6afd44a182194bdb8911518b68ca19, buf := 0xf0000000000000000000000000000000, dataLen := 17 }

/-- P4 step 1. -/
theorem test_init : initCommand xorkey key4 State.reset =
    { ready4 with rsp := [0, 0x40, 0, 0, 0, 0, 0, 0] ++ zeros 8 } := by decide +kernel
/-- V6 row 3: a bad key length loses the key bound before. -/
theorem test_init_bad_key : initCommand xorkey [1, 2, 3, 4, 5] ready4 =
    { State.reset with code := 1, rsp := [1, 0, 0, 0, 0, 0, 0, 0] ++ zeros 8 } := by decide +kernel
/-- P4 step 2. -/
theorem test_start : startCommand [0xa0, 0xa1, 0xa2, 0xa3, 0xa4, 0xa5, 0xa6, 0xa7, 0xa8, 0xa9, 0xaa, 0xab] [0x10, 0x20, 0x30] ready4 =
    { active4 with rsp := [0, 0x80, 0, 0, 0, 0, 0, 0] ++ zeros 8 } := by decide +kernel
/-- V6 row 4. -/
theorem test_start_empty_iv : startCommand [] [0xaa, 0xbb] ready4 =
    { ready4 with code := 2, rsp := [2, 0x40, 0, 0, 0, 0, 0, 0] ++ zeros 8 } := by decide +kernel
/-- P4 step 3: 17 bytes, `0x40` to `0x50`. -/
theorem test_updateE :
    updateCommand xorkey .enc [0x40, 0x41, 0x42, 0x43, 0x44, 0x45, 0x46, 0x47, 0x48, 0x49, 0x4a, 0x4b, 0x4c, 0x4d, 0x4e, 0x4f, 0x50] active4
      = { partial4 with rsp := [0, 0x80, 0, 0, 0, 0, 0, 0] ++ zeros 7 ++ [0x11] ++
          [0xe0, 0xe1, 0xe2, 0xe3, 0xe4, 0xe5, 0xe6, 0xe7, 0xe8, 0xe9, 0xea, 0xeb, 0x40, 0x40, 0x40, 0x42, 0xf0] } := by
  decide +kernel
/-- V6 row 9. -/
theorem test_updateE_too_long :
    updateCommand xorkey .enc [0xaa, 0xbb] { active4 with dataLen := 0xfffffffdf#64 } =
      { active4 with dataLen := 0xfffffffdf#64, code := 3, rsp := [3, 0x80, 0, 0, 0, 0, 0, 0] ++ zeros 8 } := by decide +kernel
/-- R196: the ciphertext of P4 step 3 leaves the same state and gives the plaintext. -/
theorem test_updateD :
    updateCommand xorkey .dec [0xe0, 0xe1, 0xe2, 0xe3, 0xe4, 0xe5, 0xe6, 0xe7, 0xe8, 0xe9, 0xea, 0xeb, 0x40, 0x40, 0x40, 0x42, 0xf0] active4
      = { partial4 with rsp := [0, 0x80, 0, 0, 0, 0, 0, 0] ++ zeros 7 ++ [0x11] ++
          [0x40, 0x41, 0x42, 0x43, 0x44, 0x45, 0x46, 0x47, 0x48, 0x49, 0x4a, 0x4b, 0x4c, 0x4d, 0x4e, 0x4f, 0x50] } := by
  decide +kernel
/-- R190: an UPDATE while Ready (R91's last example). -/
theorem test_updateD_out_of_sequence : updateCommand xorkey .dec [0xaa] ready4 =
    { ready4 with code := 6, rsp := [6, 0x40, 0, 0, 0, 0, 0, 0] ++ zeros 8 } := by decide +kernel
/-- P4 step 4. -/
theorem test_finishE : finishECommand xorkey 128 partial4 =
    let tag := bytes16 0xee0d83cc4175c9c542ff79a260809dc2
    { ready4 with st := .finished, rsp := [0, 0xc0, 0, 0, 0, 0, 0, 0] ++ zeros 7 ++ [0x10] ++ tag } := by decide +kernel
/-- V6 row 14. -/
theorem test_finishE_bad_taglen : finishECommand xorkey 33 active4 =
    { active4 with code := 4, rsp := [4, 0x80, 0, 0, 0, 0, 0, 0] ++ zeros 8 } := by decide +kernel
/-- P4 with R181: the 32-bit tag is the prefix, and verifies. -/
theorem test_finishD : finishDCommand xorkey 32 [0xee, 0x0d, 0x83, 0xcc] partial4 =
    { ready4 with st := .finished, rsp := [0, 0xc0, 0, 0, 0, 0, 0, 0] ++ zeros 8 } := by decide +kernel
/-- R235: one bit off, AuthenticationFailed and Finished. -/
theorem test_finishD_forged : finishDCommand xorkey 32 [0xee, 0x0d, 0x83, 0xcd] partial4 =
    { ready4 with st := .finished, code := 5, rsp := [5, 0xc0, 0, 0, 0, 0, 0, 0] ++ zeros 8 } := by decide +kernel

/-! ## The source's own vector S1, with the oracle table of its cipher -/

/-- The two values of `E` that S1 needs (AES-128, its key), and 0 elsewhere. -/
def oracleS1 : Cipher where
  keySizes := [16, 24, 32]
  expandKey key := ⟨key⟩
  encryptBlock _ b :=
    if b = 0 then 0xaff5ecc004de0c32aa2a8db6be4a8890
    else if b = 0xabc1b03aebec325bd7a782b4de43ee83 then 0x0b6b57db309eff920c8133b8691e0cac
    else 0
  unboundBlock b := b

/-- S1: the document's tag of the empty message under its 128-bit IV. -/
theorem test_s1_tag :
    gcmTag oracleS1 (some ⟨[]⟩) (bytes16 0x6bb54c9fd83c12f5ba76cc83f7650d2c) [] [] 128
      = bytes16 0x0b6b57db309eff920c8133b8691e0cac := by decide +kernel

/-! ## Steps -/

/-- R73, R260: right after reset the engine waits. -/
theorem test_reset_waits : step State.reset = .fault .waitingForPacket := rfl
/-- P3 step 6: an opcode-5 packet at the head of the stream. -/
theorem test_step_illegal : step { ready4 with cmd := head 0x50 0 0 0 ++ [0x10] } =
    .next { ready4 with cmd := [0x10], code := 7, rsp := [7, 0x40, 0, 0, 0, 0, 0, 0] ++ zeros 8 } := by rfl

end Sys2Proof.Tests
end

