-- ==== Sys2Proof/Tests/Witnesses.lean ====
section
/-! SUPPORT. Sys2Proof/Tests/Witnesses.lean: for every statement that has hypotheses, a concrete case that meets all of them, and for
a statement of several clauses one for each clause, at the ends of its range. -/

namespace Sys2Proof.Tests

-- One test after another: tests that close in the kernel would otherwise each hold a thread while they wait for the rest.
set_option Elab.async false

open Sys2Proof.Machine

/-! ## Concrete instances -/

/-- An instance in Ready with a key bound. -/
def ready : State :=
  { State.reset with st := .ready, ks := some ⟨[]⟩, h := hashSubkey Config.cipher (some ⟨[]⟩) }

/-- The same in Finished, after a message. -/
def finished : State := { ready with st := .finished }

/-- The same in Active, at the start of a message. -/
def active : State := { ready with st := .active }

/-- The same in Active with `n` data bytes processed and the registers that R47 asks for. -/
def afterData (n : BitVec 64) : State :=
  { active with
    dataLen := n
    cb := inc32^[blocksBegun n.toNat] 0
    ksb := encrypt Config.cipher (some ⟨[]⟩) (inc32^[blocksBegun n.toNat] 0) }

/-- Every data byte but one processed (R11). -/
def almostFull : State := afterData 0xfffffffdf

theorem ready_keyBound : KeyBound Config.cipher ready := ⟨by simp [ready], rfl⟩

theorem finished_keyBound : KeyBound Config.cipher finished := ready_keyBound

theorem active_inv : EngineInv Config.cipher active :=
  ⟨ready_keyBound, by decide, by decide, rfl, rfl, fun q _ _ => by simp [active, ready, State.reset, getByte], fun _ => rfl⟩

theorem afterData_inv (n : BitVec 64) (hn : n.toNat ≤ 2 ^ 36 - 32)
    (h0 : blocksBegun n.toNat ≠ 0) : EngineInv Config.cipher (afterData n) :=
  ⟨ready_keyBound, show (0#64).toNat < 2 ^ 61 by decide, hn, rfl, (if_neg h0).symm,
   fun q _ _ => by simp [afterData, active, ready, State.reset, getByte], fun _ => rfl⟩

theorem almostFull_dataLen : almostFull.dataLen.toNat = 68719476703 := by
  show (0xfffffffdf#64).toNat = 68719476703
  decide

theorem almostFull_inv : EngineInv Config.cipher almostFull := afterData_inv _ (by decide) (by decide)

/-! ## Encoding -/

theorem witness_DecodeOfEncodeIsTheCommand :
    (Instr.init []).wf = true ∧ (Instr.start [1] [2, 3]).wf = true ∧ (Instr.updateE [1]).wf = true ∧
    (Instr.updateD []).wf = true ∧ (Instr.finishE 255).wf = true ∧ (Instr.finishD 0 [9]).wf = true := by decide

theorem witness_DecodedStreamBeginsWithItsPacket : decode (head 0x40 0x60 0 0 ++ [7]) = .command (.finishE 96) [7] := by
  decide +kernel

/-- An all-zero descriptor is not well-formed: opcode 0. -/
theorem zero_not_wf : ¬ DescriptorWf 0 := fun h => by
  have h1 := h.2.1
  revert h1
  decide

theorem witness_IllegalPacketIsConsumedWhole :
    ¬ DescriptorWf 0 ∧ ([] : Bytes).length = ((0 : Descriptor).extractLsb 124 64).toNat ∧
    ([] : Bytes).length = ((0 : Descriptor).extractLsb 60 0).toNat ∧
    ({ State.reset with cmd := head 0 0 0 0 ++ [5] } : State).cmd = toBytesBE 24 (0 : Descriptor) ++ [] ++ [] ++ [5] :=
  ⟨zero_not_wf, by decide, by decide, by decide +kernel⟩

theorem witness_ResponsePacketReadsBack : ([1, 2, 3] : Bytes).length < 2 ^ 61 := by decide

/-! ## Steps and runs -/

theorem witness_StepRunsTheDecodedCommand :
    (Instr.finishE 96).wf = true ∧ ({ active with cmd := encode (.finishE 96) ++ [7] } : State).cmd = encode (.finishE 96) ++ [7] :=
  ⟨rfl, rfl⟩

/-- The descriptor of UPDATE.E with one byte, whose packet is 25 bytes. -/
def oneByte : Descriptor := (Instr.updateE [7]).descriptor

/-- Nothing there, one byte short of a descriptor, and one byte short of the packet. -/
theorem witness_NoStepOnATruncatedPacket :
    ([7] : Bytes).length = (oneByte.extractLsb 124 64).toNat ∧ ([] : Bytes).length = (oneByte.extractLsb 60 0).toNat ∧
    (∀ n ∈ [0, 1, 23, 24], n < 24 + ([7] : Bytes).length + ([] : Bytes).length ∧
      ({ State.reset with cmd := (toBytesBE 24 oneByte ++ [7] ++ []).take n } : State).cmd
        = (toBytesBE 24 oneByte ++ [7] ++ []).take n) := by
  refine ⟨by decide, by decide, fun n hn => ⟨?_, rfl⟩⟩
  simp only [List.mem_cons, List.not_mem_nil, or_false] at hn
  simp only [List.length_cons, List.length_nil]
  omega

theorem witness_StreamRunsCommandsInOrder :
    ∀ i ∈ [Instr.start [1] [], Instr.updateE [2], Instr.finishE 128], i.wf = true := by decide

theorem witness_EveryStepEmitsOneResponse :
    ∃ t, step { active with cmd := head 0x40 0x80 0 0 } = .next t := ⟨_, rfl⟩

/-- A success of each of the six commands, and a rejection. -/
theorem witness_OutputLengthOfEveryCommand :
    (∃ t, exec (.init (zeros Config.firstKeySize)) ready = .next t ∧ t.code = 0) ∧
    (∃ t, exec (.start [1] []) ready = .next t ∧ t.code = 0) ∧
    (∃ t, exec (.updateE [1]) active = .next t ∧ t.code = 0) ∧
    (∃ t, exec (.updateD []) active = .next t ∧ t.code = 0) ∧
    (∃ t, exec (.finishE 32) active = .next t ∧ t.code = 0) ∧
    (∃ t, exec (.finishD 128 (finishEffect Config.cipher 128 active).2) active = .next t ∧ t.code = 0) ∧
    (∃ t, exec (.start [] []) ready = .next t ∧ t.code ≠ 0) := by
  refine ⟨⟨_, rfl, ?_⟩, ⟨_, rfl, rfl⟩, ⟨_, rfl, rfl⟩, ⟨_, rfl, rfl⟩, ⟨_, rfl, rfl⟩, ⟨_, rfl, ?_⟩, ⟨_, rfl, by decide⟩⟩
  · simp [initCommand, ready, initAccepts, keySetup, Config.cipher, Config.keySizes]
  · have hl : (finishEffect Config.cipher 128 active).2.length = 16 := by
      rw [finishEffect_tag, msb, List.length_take, bytes16_length]; rfl
    have he : ctEq (finishEffect Config.cipher 128 active).2 (finishEffect Config.cipher 128 active).2 = true := by
      have z : ∀ l : Bytes, List.zipWith (· ^^^ ·) l l = zeros l.length := by
        intro l; induction l with
        | nil => rfl
        | cons x xs ih => rw [List.zipWith_cons_cons, ih]; simp [zeros, List.replicate_succ]
      rw [ctEq, z, hl]; decide
    have hc : finishCheck 128 (some (finishEffect Config.cipher 128 active).2.length) active = none := by rw [hl]; rfl
    exact congrArg (fun b => State.code b)
      (show finishDCommand Config.cipher 128 (finishEffect Config.cipher 128 active).2 active
          = succeed [] (finishEffect Config.cipher 128 active).1 by
        unfold finishDCommand; rw [hc]; simp only [he, if_true])

theorem witness_RejectedCommandChangesOnlyCode :
    ∃ t, exec (.start [] []) ready = .next t ∧ t.code ≠ 0 ∧ t.code ≠ 1 ∧ t.code ≠ 5 :=
  ⟨_, rfl, by decide, by decide, by decide⟩

/-- Each command in each state it is not accepted in. -/
theorem witness_CommandOutOfSequenceIsRejected :
    (active.st = .active ∨ active.st = .finished) ∧ (finished.st = .active ∨ finished.st = .finished) ∧
    (State.reset.st = .uninitialized ∨ State.reset.st = .active) ∧ (active.st = .uninitialized ∨ active.st = .active) ∧
    State.reset.st ≠ .active ∧ ready.st ≠ .active ∧ finished.st ≠ .active :=
  ⟨.inl rfl, .inr rfl, .inl rfl, .inr rfl, by decide, by simp [ready], by simp [finished, ready]⟩

/-- The successes of `witness_OutputLengthOfEveryCommand` are those of this statement too. -/
theorem witness_SuccessFollowsTheTransitionTable :
    ∃ t, exec (.start [1] []) finished = .next t ∧ t.code = 0 := ⟨_, rfl, rfl⟩

theorem witness_OnlyAnAcceptedInitChangesTheKey :
    (∃ t, exec (.init [1]) active = .next t) ∧ (∀ key, Instr.init [1] = .init key → active.st = .active ∨ active.st = .finished) ∧
    (∃ t, exec (.updateE [1]) active = .next t) ∧ (∀ key, Instr.updateE [1] = .init key → active.st = .active ∨ active.st = .finished) :=
  ⟨⟨_, rfl⟩, fun _ _ => .inl rfl, ⟨_, rfl⟩, fun _ _ => .inl rfl⟩

theorem witness_EveryStepKeepsEngineInv :
    EngineInv Config.cipher { active with cmd := head 0x30 0 1 0 ++ [9] } ∧
    ∃ t, step { active with cmd := head 0x30 0 1 0 ++ [9] } = .next t := ⟨active_inv, _, rfl⟩

/-! ## INIT and START -/

theorem witness_InitBindsKeyAndSubkey :
    (State.reset.st = .uninitialized ∨ State.reset.st = .ready) ∧ (ready.st = .uninitialized ∨ ready.st = .ready) ∧
    (zeros Config.firstKeySize).length ∈ Config.keySizes :=
  ⟨.inl rfl, .inr rfl, by simp [Config.keySizes]⟩

/-- A key longer than every accepted one. -/
theorem witness_InitWithBadKeyLengthResetsTheInstance :
    (ready.st = .uninitialized ∨ ready.st = .ready) ∧ (zeros (Config.keySizes.sum + 1)).length ∉ Config.keySizes := by
  refine ⟨.inr rfl, fun h => ?_⟩
  have := List.le_sum_of_mem h
  simp at this

theorem witness_StartDerivesJ0AndFoldsTheAad :
    (ready.st = .ready ∨ ready.st = .finished) ∧ (finished.st = .ready ∨ finished.st = .finished) ∧ ([1] : Bytes) ≠ [] :=
  ⟨.inl rfl, .inr rfl, by decide⟩

theorem witness_StartRejectsExactlyTheEmptyIv :
    (ready.st = .ready ∨ ready.st = .finished) ∧ (finished.st = .ready ∨ finished.st = .finished) ∧ ([1] : Bytes) ≠ [] :=
  ⟨.inl rfl, .inr rfl, by decide⟩

theorem witness_J0OfANinetySixBitIv : (zeros 12).length = 12 := by decide

/-- The lengths beside 12, and both ends of the one-block range. -/
theorem witness_J0OfAnyOtherIv :
    ((zeros 11).length ≠ 12 ∧ (zeros 11).length < 2 ^ 61) ∧ ((zeros 13).length ≠ 12 ∧ (zeros 13).length < 2 ^ 61) ∧
    (0 < (zeros 1).length ∧ (zeros 1).length ≤ 16) ∧ (0 < (zeros 16).length ∧ (zeros 16).length ≤ 16) := by decide

/-! ## UPDATE -/

/-- The first byte of a message and the last byte the bound allows. -/
theorem witness_UpdateEncryptsWithTheKeystream :
    (active.st = .active ∧ EngineInv Config.cipher active ∧ active.dataLen.toNat + ([1] : Bytes).length ≤ 2 ^ 36 - 32) ∧
    (almostFull.st = .active ∧ EngineInv Config.cipher almostFull ∧
      almostFull.dataLen.toNat + ([1] : Bytes).length ≤ 2 ^ 36 - 32) :=
  ⟨⟨rfl, active_inv, by decide⟩, rfl, almostFull_inv, by rw [almostFull_dataLen]; decide⟩

theorem witness_UpdateDecryptsWithTheKeystream :
    (active.st = .active ∧ EngineInv Config.cipher active ∧ active.dataLen.toNat + ([1] : Bytes).length ≤ 2 ^ 36 - 32) ∧
    (almostFull.st = .active ∧ EngineInv Config.cipher almostFull ∧
      almostFull.dataLen.toNat + ([1] : Bytes).length ≤ 2 ^ 36 - 32) :=
  ⟨⟨rfl, active_inv, by decide⟩, rfl, almostFull_inv, by rw [almostFull_dataLen]; decide⟩

/-- An instance right after `START 01, ""`. -/
def started : State := startEffect [1] [] ready

theorem witness_UpdateHashesTheCiphertext :
    EngineInv Config.cipher started ∧ MessageSoFar [1] [] [] started ∧ ([] : Bytes).length + ([1] : Bytes).length ≤ 2 ^ 36 - 32 ∧
    (∃ t, exec (.updateE [1]) started = .next t) ∧ (∃ t, exec (.updateD [1]) started = .next t) := by
  have hd : blocksBegun started.dataLen.toNat = 0 := by decide
  have hj : started.cb = started.j0 := by simp only [started, startEffect_cb, startEffect_j0]
  refine ⟨⟨ready_keyBound, by decide, by decide, by rw [hd]; exact hj, by rw [if_pos hd]; rfl,
      fun q _ _ => by simp [started, getByte], fun _ => rfl⟩,
    ⟨rfl, by simp only [started, startEffect_j0, startEffect_h], rfl, rfl, ?_, ?_⟩, by decide,
    ⟨_, exec_eq_commandFor _ _⟩, ⟨_, exec_eq_commandFor _ _⟩⟩
  · simp only [started, startEffect_y, startEffect_h]
    rfl
  · simp only [started, startEffect_buf]
    decide

/-- One byte past the bound. -/
theorem witness_UpdatePastTheDataBoundIsRejected :
    almostFull.st = .active ∧ almostFull.dataLen.toNat + ([1, 2] : Bytes).length > 2 ^ 36 - 32 :=
  ⟨rfl, by rw [almostFull_dataLen]; decide⟩

/-- An empty message and a full one. -/
theorem witness_EmptyUpdateChangesNothing :
    (active.st = .active ∧ active.dataLen.toNat ≤ 2 ^ 36 - 32) ∧
    ((afterData 0xfffffffe0).st = .active ∧ (afterData 0xfffffffe0).dataLen.toNat ≤ 2 ^ 36 - 32) :=
  ⟨⟨rfl, by decide⟩, rfl, show (0xfffffffe0#64).toNat ≤ 2 ^ 36 - 32 by decide⟩

theorem witness_ChunkBoundariesDoNotMatter :
    (Instr.updateE = Instr.updateE ∨ Instr.updateE = Instr.updateD) ∧ (Instr.updateD = Instr.updateE ∨ Instr.updateD = Instr.updateD) ∧
    active.st = .active ∧ active.dataLen.toNat + (([1] : Bytes) ++ [2, 3]).length ≤ 2 ^ 36 - 32 ∧
    almostFull.st = .active ∧ almostFull.dataLen.toNat + (([1] : Bytes) ++ []).length ≤ 2 ^ 36 - 32 :=
  ⟨.inl rfl, .inr rfl, rfl, by decide, rfl, by rw [almostFull_dataLen]; decide⟩

/-! ## FINISH -/

/-- The smallest and the greatest legal tag length. -/
theorem witness_FinishEOutputsTheTag :
    active.st = .active ∧ active.ks = some ⟨[]⟩ ∧
    ((32 : BitVec 8).toNat % 8 = 0 ∧ 32 ≤ (32 : BitVec 8).toNat ∧ (32 : BitVec 8).toNat ≤ 128) ∧
    ((128 : BitVec 8).toNat % 8 = 0 ∧ 32 ≤ (128 : BitVec 8).toNat ∧ (128 : BitVec 8).toNat ≤ 128) :=
  ⟨rfl, rfl, by decide, by decide⟩

theorem witness_FinishDComparesTheTag :
    active.st = .active ∧ active.ks = some ⟨[]⟩ ∧
    ((32 : BitVec 8).toNat % 8 = 0 ∧ 32 ≤ (32 : BitVec 8).toNat ∧ (32 : BitVec 8).toNat ≤ 128 ∧
      (zeros 4).length = (32 : BitVec 8).toNat / 8) ∧
    ((128 : BitVec 8).toNat % 8 = 0 ∧ 32 ≤ (128 : BitVec 8).toNat ∧ (128 : BitVec 8).toNat ≤ 128 ∧
      (zeros 16).length = (128 : BitVec 8).toNat / 8) :=
  ⟨rfl, rfl, by decide, by decide⟩

/-- Too short, too long, not a multiple of 8, and a legal length with a tag of another length. -/
theorem witness_FinishWithBadTagLengthIsRejected :
    active.st = .active ∧
    ¬ ((24 : BitVec 8).toNat % 8 = 0 ∧ 32 ≤ (24 : BitVec 8).toNat ∧ (24 : BitVec 8).toNat ≤ 128) ∧
    ¬ ((136 : BitVec 8).toNat % 8 = 0 ∧ 32 ≤ (136 : BitVec 8).toNat ∧ (136 : BitVec 8).toNat ≤ 128) ∧
    ¬ ((33 : BitVec 8).toNat % 8 = 0 ∧ 32 ≤ (33 : BitVec 8).toNat ∧ (33 : BitVec 8).toNat ≤ 128) ∧
    (zeros 15).length ≠ (128 : BitVec 8).toNat / 8 := ⟨rfl, by decide, by decide, by decide, by decide⟩

theorem witness_ComparisonIsByteStringEquality : ([1, 2] : Bytes).length = ([1, 3] : Bytes).length := rfl

theorem witness_TruncatedTagsArePrefixes : 32 ≤ 128 := by decide

/-! ## Field, hash, counter -/

theorem witness_MultiplierHasNoZeroDivisors : gfMul 0 5 = 0 := by decide +kernel

theorem witness_ByteSerialHashAgreesWithBlockwise : active.buf = 0 := rfl

theorem witness_LengthBlockHoldsBothBitLengths :
    2 ^ 61 - 1 < 2 ^ 61 ∧ 0 < 2 ^ 61 := by decide

theorem witness_CounterBlocksOfAMessageAreDistinct :
    (0 < 1 ∧ 1 ≤ 2 ^ 32 - 2) ∧ (0 < 2 ^ 32 - 2 ∧ 2 ^ 32 - 2 ≤ 2 ^ 32 - 2) := by decide

/-- Two ciphers that differ elsewhere and agree on the block 0. -/
theorem witness_CommandSeesOnlyItsCipherRequests :
    xorkey.keySizes = ({ xorkey with encryptBlock := fun k _ => blk k.image } : Cipher).keySizes ∧
    xorkey.expandKey = ({ xorkey with encryptBlock := fun k _ => blk k.image } : Cipher).expandKey ∧
    AgreeOn xorkey { xorkey with encryptBlock := fun k _ => blk k.image } (requestKey xorkey (.init key4) State.reset)
      (cipherRequests xorkey (.init key4) State.reset) := by
  refine ⟨rfl, rfl, fun b hb => ?_⟩
  have : b = 0 := by simpa [cipherRequests, State.reset, initAccepts, keySetup, xorkey, key4] using hb
  subst this
  decide +kernel

/-! ## Whole messages -/

theorem witness_EncryptSequenceComputesGcm :
    (ready.st = .ready ∨ ready.st = .finished) ∧ KeyBound Config.cipher ready ∧ ([1] : Bytes) ≠ [] ∧ ([1] : Bytes).length < 2 ^ 61 ∧
    ([] : Bytes).length < 2 ^ 61 ∧ ([[1, 2], [], [3]] : List Bytes).flatten.length ≤ 2 ^ 36 - 32 ∧
    taglenOk (128 : BitVec 8).toNat = true :=
  ⟨.inl rfl, ready_keyBound, by decide, by decide, by decide, by decide, by decide⟩

theorem witness_DecryptSequenceVerifiesGcm :
    (finished.st = .ready ∨ finished.st = .finished) ∧ KeyBound Config.cipher finished ∧ ([1] : Bytes) ≠ [] ∧
    ([1] : Bytes).length < 2 ^ 61 ∧ ([] : Bytes).length < 2 ^ 61 ∧ ([[1, 2], [], [3]] : List Bytes).flatten.length ≤ 2 ^ 36 - 32 ∧
    taglenOk (32 : BitVec 8).toNat = true ∧ (zeros 4).length = (32 : BitVec 8).toNat / 8 :=
  ⟨.inr rfl, finished_keyBound, by decide, by decide, by decide, by decide, by decide, by decide⟩

theorem witness_DecryptOfEncryptIsThePlaintext :
    (ready.st = .ready ∨ ready.st = .finished) ∧ KeyBound Config.cipher ready ∧ ([1] : Bytes) ≠ [] ∧ ([1] : Bytes).length < 2 ^ 61 ∧
    ([] : Bytes).length < 2 ^ 61 ∧ ([1, 2, 3] : Bytes).length ≤ 2 ^ 36 - 32 ∧ taglenOk (32 : BitVec 8).toNat = true :=
  ⟨.inl rfl, ready_keyBound, by decide, by decide, by decide, by decide, by decide⟩

theorem complement_ne : ∀ x : Byte, ~~~x ≠ x := by decide

/-- The right tag with every byte complemented. -/
theorem witness_DecryptOfAForgeryFails :
    (ready.st = .ready ∨ ready.st = .finished) ∧ KeyBound Config.cipher ready ∧ ([1] : Bytes) ≠ [] ∧ ([1] : Bytes).length < 2 ^ 61 ∧
    ([] : Bytes).length < 2 ^ 61 ∧ ([9] : Bytes).length ≤ 2 ^ 36 - 32 ∧ taglenOk (32 : BitVec 8).toNat = true ∧
    ((gcmTag Config.cipher ready.ks [1] [] [9] 32).map fun b => ~~~b).length = (32 : BitVec 8).toNat / 8 ∧
    (gcmTag Config.cipher ready.ks [1] [] [9] 32).map (fun b => ~~~b) ≠
      gcmTag Config.cipher ready.ks [1] [] [9] (32 : BitVec 8).toNat := by
  have hl : (gcmTag Config.cipher ready.ks [1] [] [9] 32).length = 4 := by
    simp only [gcmTag, msb, List.length_take, bytes16_length]; rfl
  refine ⟨.inl rfl, ready_keyBound, by decide, by decide, by decide, by decide, by decide, by rw [List.length_map, hl]; rfl, ?_⟩
  show (gcmTag Config.cipher ready.ks [1] [] [9] 32).map (fun b => ~~~b) ≠ gcmTag Config.cipher ready.ks [1] [] [9] 32
  generalize gcmTag Config.cipher ready.ks [1] [] [9] 32 = tag at hl ⊢
  cases tag with
  | nil => simp at hl
  | cons x xs =>
    intro h
    have hx : ~~~x = x := by injection h
    exact complement_ne x hx

/-- Both ends of a byte, in the ciphertext and in the associated data. -/
theorem witness_FlippedBitChangesTheHash :
    0 < 8 ∧ 7 < 8 ∧ 0 < ([1, 2] : Bytes).length ∧ 1 < ([1, 2] : Bytes).length := by decide

theorem witness_FlippedIvBitChangesJ0 :
    0 < 8 ∧ 7 < 8 ∧ (11 < (zeros 12).length ∧ (zeros 12).length = 12) ∧ (0 < (zeros 1).length ∧ (zeros 1).length ≠ 12) := by decide

theorem witness_StartForgetsTheEarlierMessage :
    ready.ks = ({ finished with y := 5, dataLen := 9 } : State).ks ∧ ready.h = ({ finished with y := 5, dataLen := 9 } : State).h ∧
    (ready.st = .ready ∨ ready.st = .finished) ∧
    (({ finished with y := 5, dataLen := 9 } : State).st = .ready ∨ ({ finished with y := 5, dataLen := 9 } : State).st = .finished) ∧
    ([1] : Bytes) ≠ [] := ⟨rfl, rfl, .inl rfl, .inr rfl, by decide⟩

/-! ## Platform -/

theorem witness_EventTouchesOneInstance : ∃ q, Platform.event (0 : Fin 2) (.send [1]) (Platform.reset 2) = .next q := ⟨_, rfl⟩

theorem witness_EventsAtTwoInstancesCommute :
    (0 : Fin 2) ≠ 1 ∧ ∃ q r, Platform.event (0 : Fin 2) (.send [1]) (Platform.reset 2) = .next q ∧
      Platform.event (1 : Fin 2) .reset q = .next r := ⟨by decide, _, _, rfl, rfl⟩

end Sys2Proof.Tests
end

section
/-!
The tag lengths a FINISH may name (R9, R178).
-/
namespace Sys2Proof.Machine

/-- The check of R178 as the condition that defines `TAG_BITS_LEGAL` in R9. -/
theorem taglenOk_iff (t : Nat) : taglenOk t = true ↔ t % 8 = 0 ∧ 32 ≤ t ∧ t ≤ 128 := by
  simp [taglenOk, and_assoc]

/-- The legal tag lengths are an arithmetic progression: thirteen terms from 32 with step 8. -/
theorem taglenOk_iff_mem_range' (t : Nat) : taglenOk t = true ↔ t ∈ List.range' 32 13 8 := by
  rw [taglenOk_iff, List.mem_range']
  constructor
  · rintro ⟨hmod, hlo, hhi⟩
    exact ⟨(t - 32) / 8, by omega, by omega⟩
  · rintro ⟨i, hi, rfl⟩
    omega

end Sys2Proof.Machine

namespace Sys2Proof.Proofs

open Sys2Proof.Machine

/-- Settles O35: the thirteen values of R9 are the terms of the progression `taglenOk_iff_mem_range'` speaks of. -/
theorem thirteenTagLengthsAreLegal : Obligations.ThirteenTagLengthsAreLegal :=
  taglenOk_iff_mem_range'

end Sys2Proof.Proofs
end

section
/-!
What a reset leaves (R49, R231, R260, R261).
-/
namespace Sys2Proof.Machine

/-- R231 against the table of R49: only `CODE` and the two streams outlive the reset of the other registers. -/
theorem resetRegisters_eq_reset (s : State) :
    resetRegisters s = { State.reset with code := s.code, cmd := s.cmd, rsp := s.rsp } := rfl

/-- An instance that is reset cannot be told from a new one; for its command stream this rests on log 6. -/
theorem resetInstance_eq_reset (s : State) : resetInstance s = State.reset := by
  rw [resetInstance_eq, resetRegisters_eq_reset]
  rfl

end Sys2Proof.Machine

namespace Sys2Proof.Proofs

open Sys2Proof.Machine

/-- Settles O17: R49's table is the definition of `State.reset`, and `resetInstance_eq_reset` carries it to every instance. -/
theorem resetGivesTheTableOfResetValues : Obligations.ResetGivesTheTableOfResetValues := by
  unfold Obligations.ResetGivesTheTableOfResetValues
  constructor
  · rfl
  · intro s
    rw [resetInstance_eq_reset]
    exact ⟨rfl, rfl⟩

end Sys2Proof.Proofs
end

section
/-!
Which descriptors are accepted (R85), and the step on a packet whose descriptor is not (R83, R87, R238).
-/
namespace Sys2Proof

open Sys2Proof.Machine

/-- R85 (a) over the fields of R81. -/
def ReservedZero (d : Descriptor) : Prop :=
  rsv0Field d = 0 ∧ rsv1Field d = 0 ∧ rsv2Field d = 0 ∧ rsv3Field d = 0

/-- R85 with the decoder's field accessors in place of bit positions. -/
theorem descriptorWf_iff_fields (d : Descriptor) :
    DescriptorWf d ↔
      ReservedZero d ∧
      (opcField d = 1 ∨ opcField d = 2 ∨ opcField d = 3 ∨ opcField d = 4) ∧
      (opcField d = 1 → dirField d = 0 ∧ taglenField d = 0 ∧ lenBField d = 0) ∧
      (opcField d = 2 → dirField d = 0 ∧ taglenField d = 0) ∧
      (opcField d = 3 → taglenField d = 0 ∧ lenBField d = 0) ∧
      (opcField d = 4 → lenBField d = 0 ∧ (dirField d = 0 → lenAField d = 0)) := Iff.rfl

section accepted
variable {d : Descriptor} (opA opB : Bytes)

/-! The converse of `decodeDescriptor_ok_cases`, one lemma per opcode (R84, R86). -/

theorem decodeDescriptor_init (hr : ReservedZero d) (ho : opcField d = 1)
    (hf : dirField d = 0 ∧ taglenField d = 0 ∧ lenBField d = 0) :
    decodeDescriptor d opA opB = .ok (.init opA) := by
  obtain ⟨r0, r1, r2, r3⟩ := hr
  obtain ⟨hd, ht, hb⟩ := hf
  simp [decodeDescriptor, require, r0, r1, r2, r3, ho, hd, ht, hb]

theorem decodeDescriptor_start (hr : ReservedZero d) (ho : opcField d = 2)
    (hf : dirField d = 0 ∧ taglenField d = 0) :
    decodeDescriptor d opA opB = .ok (.start opA opB) := by
  obtain ⟨r0, r1, r2, r3⟩ := hr
  obtain ⟨hd, ht⟩ := hf
  simp [decodeDescriptor, require, r0, r1, r2, r3, ho, hd, ht]

theorem decodeDescriptor_update (hr : ReservedZero d) (ho : opcField d = 3)
    (hf : taglenField d = 0 ∧ lenBField d = 0) :
    decodeDescriptor d opA opB = .ok (if dirField d = 0 then .updateE opA else .updateD opA) := by
  obtain ⟨r0, r1, r2, r3⟩ := hr
  obtain ⟨ht, hb⟩ := hf
  simp [decodeDescriptor, require, r0, r1, r2, r3, ho, ht, hb]

theorem decodeDescriptor_finish (hr : ReservedZero d) (ho : opcField d = 4)
    (hf : lenBField d = 0 ∧ (dirField d = 0 → lenAField d = 0)) :
    decodeDescriptor d opA opB =
      .ok (if dirField d = 0 then .finishE (taglenField d) else .finishD (taglenField d) opA) := by
  obtain ⟨r0, r1, r2, r3⟩ := hr
  obtain ⟨hb, ha⟩ := hf
  by_cases hd : dirField d = 0#1
  · simp [decodeDescriptor, require, r0, r1, r2, r3, ho, hb, hd, ha hd]
  · simp [decodeDescriptor, require, r0, r1, r2, r3, ho, hb, hd]

end accepted

theorem descriptorWf_of_decodeDescriptor_ok {d : Descriptor} {opA opB : Bytes} {i : Instr}
    (h : decodeDescriptor d opA opB = .ok i) : DescriptorWf d := by
  rw [descriptorWf_iff_fields]
  obtain ⟨hr, h⟩ := decodeDescriptor_ok_cases h
  refine ⟨hr, ?_⟩
  rcases h with ⟨ho, hd, ht, hb, -⟩ | ⟨ho, hd, ht, -⟩ | ⟨ho, hd, ht, hb, -⟩ | ⟨ho, hd, ht, hb, -⟩ |
    ⟨ho, hd, hb, ha, -⟩ | ⟨ho, hd, hb, -⟩
  case inl => simp [ho, hd, ht, hb]
  case inr.inl => simp [ho, hd, ht]
  case inr.inr.inl => simp [ho, ht, hb]
  case inr.inr.inr.inl => simp [ho, ht, hb]
  case inr.inr.inr.inr.inl => simp [ho, hb, ha]
  case inr.inr.inr.inr.inr => simp [ho, hd, hb]

theorem decodeDescriptor_ok_of_descriptorWf {d : Descriptor} (opA opB : Bytes) (h : DescriptorWf d) :
    ∃ i, decodeDescriptor d opA opB = .ok i := by
  obtain ⟨hr, ho, hinit, hstart, hupdate, hfinish⟩ := (descriptorWf_iff_fields d).mp h
  rcases ho with ho | ho | ho | ho
  · exact ⟨_, decodeDescriptor_init opA opB hr ho (hinit ho)⟩
  · exact ⟨_, decodeDescriptor_start opA opB hr ho (hstart ho)⟩
  · exact ⟨_, decodeDescriptor_update opA opB hr ho (hupdate ho)⟩
  · exact ⟨_, decodeDescriptor_finish opA opB hr ho (hfinish ho)⟩

/-- Framing does not look at the fields R85 checks, so the stream goes on after the whole packet (R83, R87). -/
theorem decode_illegal_of_not_descriptorWf {stream opA opB rest : Bytes} {d : Descriptor}
    (hf : frame stream = .packet d opA opB rest) (hd : ¬ DescriptorWf d) :
    ∃ why, decode stream = .illegal why rest := by
  cases hdec : decodeDescriptor d opA opB with
  | ok i => exact absurd (descriptorWf_of_decodeDescriptor_ok hdec) hd
  | error why => exact ⟨why, by simp only [decode, hf, hdec]⟩

namespace Machine

theorem step_of_decode_illegal {s : State} {why : IllegalReason} {rest : Bytes} (h : decode s.cmd = .illegal why rest) :
    step s = .next (illegalPacket rest s) := by
  simp only [step, h]

/-- R238 as one whole-state equation. -/
theorem illegalPacket_eq (rest : Bytes) (s : State) :
    illegalPacket rest s = { s with cmd := rest, code := 7, rsp := s.rsp ++ responsePacket 7 s.st [] } :=
  raise_eq .illegalCommand { s with cmd := rest } (by decide) (by decide)

end Machine

end Sys2Proof

namespace Sys2Proof.Proofs

open Sys2Proof.Machine

/-- Settles O3: one direction reads the clauses of R85 off `decodeDescriptor_ok_cases`, the other names the command of each
opcode. -/
theorem descriptorAcceptedExactlyWhenWellFormed : Obligations.DescriptorAcceptedExactlyWhenWellFormed := by
  intro d opA opB
  constructor
  · rintro ⟨i, h⟩
    exact descriptorWf_of_decodeDescriptor_ok h
  · exact decodeDescriptor_ok_of_descriptorWf opA opB

/-- Settles O4: framing finds the packet whatever its fields hold, and `descriptorWf_of_decodeDescriptor_ok` bars every
command for it. -/
theorem illegalPacketIsConsumedWhole : Obligations.IllegalPacketIsConsumedWhole := by
  intro s d opA opB rest hd ha hb hcmd
  have hframe : frame s.cmd = .packet d opA opB rest :=
    (frame_eq_packet_iff s.cmd opA opB rest d).mpr ⟨hcmd, ha, hb⟩
  obtain ⟨why, hdec⟩ := decode_illegal_of_not_descriptorWf hframe hd
  rw [step_of_decode_illegal hdec, illegalPacket_eq]

end Sys2Proof.Proofs
end

section
/-!
The response of a command and the length of its output (R90, R191, R236).
-/
namespace Sys2Proof.Machine

@[simp] theorem Status.number_eq_zero_iff (e : Status) : e.number = 0 ↔ e = .ok := by
  cases e <;> decide

/-- An error's effect is on the registers; the response comes with `respond` (R236). -/
@[simp] theorem errorEffect_rsp (e : Status) (s : State) : (errorEffect e s).rsp = s.rsp := by
  cases e <;> rfl

/-- `t` has appended to the response stream of `s` one packet with its own `CODE` and `ST`, whose output is `len` bytes long
when `CODE` is OK and empty otherwise (R89, R90). -/
def RespondsWithLength (s t : State) (len : Nat) : Prop :=
  ∃ out : Bytes, t.rsp = s.rsp ++ responsePacket t.code t.st out ∧
    (t.code ≠ 0 → out.length = 0) ∧ (t.code = 0 → out.length = len)

/-- The effect `u` of a command that succeeds has left the response stream of `s` alone. -/
theorem succeed_respondsWithLength {s u : State} {out : Bytes} {len : Nat} (hu : u.rsp = s.rsp) (hout : out.length = len) :
    RespondsWithLength s (succeed out u) len :=
  ⟨out, by simp [hu], fun h => absurd rfl h, fun _ => hout⟩

/-- A rejection has no output, so it meets every length a success would have (R90, R236). -/
theorem raise_respondsWithLength {s u : State} {e : Status} (len : Nat) (hu : u.rsp = s.rsp) (he : e ≠ .ok) :
    RespondsWithLength s (raise e u) len :=
  ⟨[], by simp [raise, hu], fun _ => rfl, fun h => absurd ((Status.number_eq_zero_iff e).mp h) he⟩

/-- A tag has 16 bytes, and no more than that is asked of it (R177). -/
theorem msb_length (tag : Block) {t : Nat} (ht : t ≤ 128) : (msb tag t).length = t / 8 := by
  rw [msb, List.length_take, bytes16_length]
  omega

theorem initCommand_respondsWithLength (c : Cipher) (key : Bytes) (s : State) :
    RespondsWithLength s (initCommand c key s) 0 := by
  rcases initCommand_cases c key s with ⟨-, h⟩ | ⟨-, -, h⟩ | ⟨k, -, -, h⟩ <;> rw [h]
  · exact raise_respondsWithLength 0 rfl (by decide)
  · exact raise_respondsWithLength 0 rfl (by decide)
  · exact succeed_respondsWithLength rfl rfl

theorem startCommand_respondsWithLength (iv aad : Bytes) (s : State) :
    RespondsWithLength s (startCommand iv aad s) 0 := by
  rcases startCommand_cases iv aad s with ⟨-, h⟩ | ⟨-, -, h⟩ | ⟨-, -, h⟩ <;> rw [h]
  · exact raise_respondsWithLength 0 rfl (by decide)
  · exact raise_respondsWithLength 0 rfl (by decide)
  · exact succeed_respondsWithLength rfl rfl

theorem updateCommand_respondsWithLength (c : Cipher) (dir : Dir) (chunk : Bytes) (s : State) :
    RespondsWithLength s (updateCommand c dir chunk s) chunk.length := by
  rcases updateCommand_cases c dir chunk s with ⟨-, h⟩ | ⟨-, -, h⟩ | ⟨-, -, h⟩ <;> rw [h]
  · exact raise_respondsWithLength _ rfl (by decide)
  · exact raise_respondsWithLength _ rfl (by decide)
  · exact succeed_respondsWithLength (updateLoop_rsp c dir chunk s) (updateLoop_out_length c dir chunk s)

/-- Past the checks the tag length is at most 128 bits, so the truncated tag has all the bytes asked for (R178, R198). -/
theorem finishECommand_respondsWithLength (c : Cipher) (taglen : BitVec 8) (s : State) :
    RespondsWithLength s (finishECommand c taglen s) (taglen.toNat / 8) := by
  rcases finishECommand_cases c taglen s with ⟨-, h⟩ | ⟨-, -, h⟩ | ⟨-, hok, h⟩ <;> rw [h]
  · exact raise_respondsWithLength _ rfl (by decide)
  · exact raise_respondsWithLength _ rfl (by decide)
  · obtain ⟨-, -, hmax⟩ := (taglenOk_iff taglen.toNat).mp hok
    refine succeed_respondsWithLength (finishEffect_rsp c taglen s) ?_
    rw [finishEffect_tag, msb_length _ hmax]

theorem finishDCommand_respondsWithLength (c : Cipher) (taglen : BitVec 8) (tag : Bytes) (s : State) :
    RespondsWithLength s (finishDCommand c taglen tag s) 0 := by
  rcases finishDCommand_cases c taglen tag s with ⟨-, h⟩ | ⟨-, -, h⟩ | ⟨-, -, -, h⟩ <;> rw [h]
  · exact raise_respondsWithLength 0 rfl (by decide)
  · exact raise_respondsWithLength 0 rfl (by decide)
  · split
    · exact succeed_respondsWithLength (finishEffect_rsp c taglen s) rfl
    · exact raise_respondsWithLength 0 (finishEffect_rsp c taglen s) (by decide)

end Sys2Proof.Machine

namespace Sys2Proof.Proofs

open Sys2Proof.Machine

/-- Settles O12: the table of R90, a row per command. -/
theorem outputLengthOfEveryCommand : Obligations.OutputLengthOfEveryCommand := by
  intro i s t h
  rw [exec_eq_commandFor] at h
  injection h with h
  subst h
  cases i with
  | init key => exact initCommand_respondsWithLength Config.cipher key s
  | start iv aad => exact startCommand_respondsWithLength iv aad s
  | updateE chunk => exact updateCommand_respondsWithLength Config.cipher .enc chunk s
  | updateD chunk => exact updateCommand_respondsWithLength Config.cipher .dec chunk s
  | finishE taglen => exact finishECommand_respondsWithLength Config.cipher taglen s
  | finishD taglen tag => exact finishDCommand_respondsWithLength Config.cipher taglen tag s

end Sys2Proof.Proofs
end

section
/-!
Blocks as polynomials over GF(2), and the multiplier's shift as multiplication by `x` (R110, R111, R115).
-/
namespace Sys2Proof.Machine

open Polynomial

theorem gbit_zero (i : Nat) : gbit 0#128 i = false := BitVec.getLsbD_zero

theorem gbit_xor (a b : Block) (i : Nat) : gbit (a ^^^ b) i = (gbit a i ^^ gbit b i) := BitVec.getLsbD_xor

/-- One place to the right is one power of `x` up: the numbering is reflected (R18, R110). -/
theorem gbit_ushiftRight_one_succ (v : Block) {i : Nat} (hi : i < 127) : gbit (v >>> 1) (i + 1) = gbit v i := by
  have hindex : 1 + (127 - (i + 1)) = 127 - i := by omega
  rw [gbit, gbit, BitVec.getLsbD_ushiftRight, hindex]

theorem gbit_ushiftRight_one_zero (v : Block) : gbit (v >>> 1) 0 = false := by
  simp [gbit]

theorem gbit_twoPow {i j : Nat} (hi : i < 128) (hj : j < 128) :
    gbit (BitVec.twoPow 128 (127 - i)) j = decide (j = i) := by
  rw [gbit, BitVec.getLsbD_twoPow, ← Bool.decide_and, decide_eq_decide]
  omega

/-! ### The polynomial of a block -/

theorem coeff_poly (v : Block) (i : Nat) : (poly v).coeff i = if i < 128 ∧ gbit v i then 1 else 0 := by
  have hterm : ∀ j, (if gbit v j then (X : (ZMod 2)[X]) ^ j else 0).coeff i =
      if i = j then (if gbit v j then 1 else 0) else 0 := by
    intro j
    split <;> simp [coeff_X_pow]
  simp only [poly, finsetSum_coeff, hterm, Finset.sum_ite_eq, Finset.mem_range]
  exact (ite_and ..).symm

theorem gbit_eq_coeff (v : Block) {i : Nat} (hi : i < 128) : gbit v i = decide ((poly v).coeff i = 1) := by
  rw [coeff_poly]
  cases gbit v i <;> simp [hi]

theorem poly_injective : Function.Injective poly := by
  intro a b h
  refine BitVec.eq_of_getLsbD_eq fun i hi => ?_
  have hpow : 127 - i < 128 := by omega
  have hbit : gbit a (127 - i) = gbit b (127 - i) := by rw [gbit_eq_coeff a hpow, h, ← gbit_eq_coeff b hpow]
  have hindex : 127 - (127 - i) = i := by omega
  rwa [gbit, gbit, hindex] at hbit

theorem poly_degree_lt (v : Block) : (poly v).degree < (128 : ℕ) := by
  rw [degree_lt_iff_coeff_zero]
  intro i hi
  rw [coeff_poly, if_neg fun ⟨hlt, _⟩ => absurd hlt (Nat.not_lt.mpr hi)]

@[simp] theorem poly_zero : poly 0#128 = 0 := by
  simp only [poly, gbit_zero, Bool.false_eq_true, if_false, Finset.sum_const_zero]

/-- Xor of blocks is addition over GF(2). -/
@[simp] theorem poly_xor (a b : Block) : poly (a ^^^ b) = poly a + poly b := by
  rw [poly, poly, poly, ← Finset.sum_add_distrib]
  refine Finset.sum_congr rfl fun i _ => ?_
  rw [gbit_xor]
  cases gbit a i <;> cases gbit b i <;> simp [CharTwo.add_self_eq_zero]

theorem poly_twoPow {i : Nat} (hi : i < 128) : poly (BitVec.twoPow 128 (127 - i)) = X ^ i := by
  have hterm : ∀ j ∈ Finset.range 128, (if gbit (BitVec.twoPow 128 (127 - i)) j then (X : (ZMod 2)[X]) ^ j else 0) =
      if j = i then X ^ j else 0 := by
    intro j hj
    simp only [gbit_twoPow hi (Finset.mem_range.mp hj), decide_eq_true_eq]
  rw [poly, Finset.sum_congr rfl hterm, Finset.sum_ite_eq', if_pos (Finset.mem_range.mpr hi)]

theorem poly_gfOne : poly gfOne = 1 := (poly_twoPow (i := 0) (by decide)).trans (pow_zero X)

/-- The block `XP` of R118. -/
theorem poly_blockX : poly 0x40000000000000000000000000000000 = X := (poly_twoPow (i := 1) (by decide)).trans (pow_one X)

/-- The reduction constant is the reduction polynomial without its leading term (R111). -/
theorem poly_gfR : poly gfR = X ^ 7 + X ^ 2 + X + 1 := by
  have hbits : gfR = BitVec.twoPow 128 (127 - 7) ^^^ BitVec.twoPow 128 (127 - 2) ^^^ BitVec.twoPow 128 (127 - 1) ^^^
      BitVec.twoPow 128 (127 - 0) := by decide +kernel
  rw [hbits, poly_xor, poly_xor, poly_xor, poly_twoPow (i := 7) (by decide), poly_twoPow (i := 2) (by decide),
    poly_twoPow (i := 1) (by decide), poly_twoPow (i := 0) (by decide), pow_one, pow_zero]

theorem gfPolynomial_eq : gfPolynomial = X ^ 128 + poly gfR := by
  unfold gfPolynomial
  rw [poly_gfR, ← add_assoc, ← add_assoc, ← add_assoc]

theorem gfPolynomial_monic : gfPolynomial.Monic := by
  rw [gfPolynomial_eq]
  exact monic_X_pow_add (poly_degree_lt gfR)

theorem gfPolynomial_degree : gfPolynomial.degree = (128 : ℕ) := by
  rw [gfPolynomial_eq, degree_add_eq_left_of_degree_lt, degree_X_pow]
  rw [degree_X_pow]
  exact poly_degree_lt gfR

/-! ### Multiplication by `x` -/

/-- The shift drops the coefficient of `x^127`, which multiplication by `x` carries to `x^128`. -/
theorem X_mul_poly (v : Block) : X * poly v = poly (v >>> 1) + if v.getLsbD 0 then X ^ 128 else 0 := by
  have hlow : poly (v >>> 1) = ∑ i ∈ Finset.range 127, X * if gbit v i then X ^ i else 0 := by
    rw [poly, Finset.sum_range_succ', gbit_ushiftRight_one_zero]
    simp only [Bool.false_eq_true, if_false, add_zero]
    refine Finset.sum_congr rfl fun i hi => ?_
    rw [gbit_ushiftRight_one_succ v (Finset.mem_range.mp hi), mul_ite, mul_zero, pow_succ']
  have htop : (X * if gbit v 127 then X ^ 127 else 0 : (ZMod 2)[X]) = if v.getLsbD 0 then X ^ 128 else 0 := by
    rw [mul_ite, mul_zero, ← pow_succ']
    rfl
  rw [hlow, ← htop, poly, Finset.mul_sum, Finset.sum_range_succ]

/-- R115 over GF(2): `mulx` subtracts the reduction polynomial when the product with `x` has reached degree 128. -/
theorem X_mul_poly_eq_mulx (v : Block) : X * poly v = poly (mulx v) + if v.getLsbD 0 then gfPolynomial else 0 := by
  rw [X_mul_poly, mulx]
  cases v.getLsbD 0 with
  | false => simp
  | true =>
    simp only [if_true, poly_xor, gfPolynomial_eq]
    rw [add_comm (X ^ 128) (poly gfR), add_assoc, ← add_assoc (poly gfR), CharTwo.add_self_eq_zero, zero_add]

theorem mk_poly_mulx (v : Block) :
    AdjoinRoot.mk gfPolynomial (poly (mulx v)) = AdjoinRoot.mk gfPolynomial (X * poly v) := by
  rw [X_mul_poly_eq_mulx]
  cases v.getLsbD 0 <;> simp

/-! ### The loop of R112 -/

/-- What the last `n` steps of the loop have still to multiply by: the coefficients of `x^(128 - n)` up to `x^127`, divided by
`x^(128 - n)`. -/
noncomputable def highPart (x : Block) (n : Nat) : (ZMod 2)[X] :=
  ∑ i ∈ Finset.range n, if gbit x (128 - n + i) then X ^ i else 0

@[simp] theorem highPart_zero (x : Block) : highPart x 0 = 0 := Finset.sum_range_zero _

theorem highPart_all (x : Block) : highPart x 128 = poly x := by
  simp only [highPart, poly, Nat.sub_self, Nat.zero_add]

/-- Horner's rule, one step of the loop. -/
theorem highPart_succ (x : Block) {n : Nat} (hn : n < 128) :
    highPart x (n + 1) = (if gbit x (127 - n) then 1 else 0) + X * highPart x n := by
  have hfirst : 128 - (n + 1) + 0 = 127 - n := by omega
  have hindex : ∀ i, 128 - (n + 1) + (i + 1) = 128 - n + i := by omega
  rw [highPart, Finset.sum_range_succ', add_comm, highPart, Finset.mul_sum]
  simp only [hfirst, hindex, mul_ite, mul_zero, pow_succ', pow_zero]

/-- The invariant of the loop of R112, modulo the reduction polynomial: `z` holds the product so far and `v` is `Y` times the
power of `x` reached. -/
theorem mk_poly_gfMulLoop (x : Block) {n : Nat} (hn : n ≤ 128) (z v : Block) :
    AdjoinRoot.mk gfPolynomial (poly (gfMulLoop x n z v)) = AdjoinRoot.mk gfPolynomial (poly z + highPart x n * poly v) := by
  induction n generalizing z v with
  | zero => simp [gfMulLoop]
  | succ n ih =>
    have hz : poly (if gbit x (127 - n) then z ^^^ v else z) = poly z + (if gbit x (127 - n) then 1 else 0) * poly v := by
      split <;> simp
    rw [gfMulLoop, ih (by omega), hz, highPart_succ x (by omega), map_add, map_mul, mk_poly_mulx, ← map_mul, ← map_add,
      add_mul, mul_assoc, mul_left_comm, add_assoc]

theorem mk_poly_gfMul (x y : Block) :
    AdjoinRoot.mk gfPolynomial (poly (gfMul x y)) = AdjoinRoot.mk gfPolynomial (poly x * poly y) := by
  rw [gfMul, mk_poly_gfMulLoop x le_rfl, highPart_all]
  simp only [BitVec.ofNat_eq_ofNat, poly_zero, zero_add]

/-- A block is its own remainder: its degree is below that of the reduction polynomial. -/
theorem poly_modByMonic (v : Block) : poly v %ₘ gfPolynomial = poly v := by
  rw [modByMonic_eq_self_iff gfPolynomial_monic, gfPolynomial_degree]
  exact poly_degree_lt v

theorem modByMonic_eq_of_mk_eq {p q : (ZMod 2)[X]}
    (h : AdjoinRoot.mk gfPolynomial p = AdjoinRoot.mk gfPolynomial q) : p %ₘ gfPolynomial = q %ₘ gfPolynomial :=
  modByMonic_eq_of_dvd_sub gfPolynomial_monic (AdjoinRoot.mk_eq_mk.mp h)

/-- R113: the loop computes a block of the product's class, and a class has one remainder. -/
theorem poly_gfMul (x y : Block) : poly (gfMul x y) = (poly x * poly y) %ₘ gfPolynomial := by
  rw [← poly_modByMonic (gfMul x y), modByMonic_eq_of_mk_eq (mk_poly_gfMul x y)]

theorem poly_mulx (v : Block) : poly (mulx v) = (X * poly v) %ₘ gfPolynomial := by
  rw [← poly_modByMonic (mulx v), modByMonic_eq_of_mk_eq (mk_poly_mulx v)]

/-! ### Laws of the product, read off its polynomial -/

theorem gfMul_comm (a b : Block) : gfMul a b = gfMul b a :=
  poly_injective (by rw [poly_gfMul, poly_gfMul, mul_comm])

@[simp] theorem gfMul_zero (a : Block) : gfMul a 0#128 = 0#128 :=
  poly_injective (by rw [poly_gfMul, poly_zero, mul_zero, zero_modByMonic])

@[simp] theorem zero_gfMul (a : Block) : gfMul 0#128 a = 0#128 := by
  rw [gfMul_comm, gfMul_zero]

@[simp] theorem gfMul_gfOne (a : Block) : gfMul a gfOne = a :=
  poly_injective (by rw [poly_gfMul, poly_gfOne, mul_one, poly_modByMonic])

@[simp] theorem gfOne_gfMul (a : Block) : gfMul gfOne a = a := by
  rw [gfMul_comm, gfMul_gfOne]

theorem gfMul_blockX (a : Block) : gfMul a 0x40000000000000000000000000000000 = mulx a :=
  poly_injective (by rw [poly_gfMul, poly_blockX, poly_mulx, mul_comm])

end Sys2Proof.Machine

namespace Sys2Proof.Proofs

open Sys2Proof.Machine

/-- Settles O38: the loop keeps the product's class modulo the reduction polynomial (`mk_poly_gfMulLoop`), and a block is the
remainder of its class. -/
theorem multiplierIsPolynomialProduct : Obligations.MultiplierIsPolynomialProduct := poly_gfMul

/-- Settles O40: the product with `x` and the shift have one polynomial, by `poly_gfMul` and `poly_mulx`. -/
theorem multiplierByX : Obligations.MultiplierByX := fun a => ⟨gfMul_blockX a, rfl⟩

/-- Settles O42: 0 and `ONE` from the laws of the product, the products of particular blocks by running the loop. -/
theorem multiplierCornerValues : Obligations.MultiplierCornerValues := by
  unfold Obligations.MultiplierCornerValues
  refine ⟨fun a => ⟨zero_gfMul a, gfMul_zero a, gfOne_gfMul a, gfMul_gfOne a⟩, ?_⟩
  decide +kernel

end Sys2Proof.Proofs
end

section
/-!
The message hash fed byte by byte (R132 to R135, R139).
-/
namespace Sys2Proof.Machine

/-- The whole 16-byte blocks at the front of a string. -/
def wholeBlocks (b : Bytes) : Bytes := b.take (16 * (b.length / 16))

/-- What a string has past its whole blocks, less than one block. -/
def partialBlock (b : Bytes) : Bytes := b.drop (16 * (b.length / 16))

/-- A string of at most one block as a block, zero-padded on the right. -/
def padBlock (p : Bytes) : Block := blk (p ++ zeros (16 - p.length))

/-- `s` once the bytes of `b` have been fed to its empty partial block: the whole blocks are folded into `Y`, the rest stands
zero-padded in `BUF` (R38, R134). -/
def hashSoFar (b : Bytes) (s : State) : State :=
  { s with y := absorb s.y (wholeBlocks b) s.h, buf := padBlock (partialBlock b) }

theorem padBlock_nil : padBlock [] = 0 := blk_zeros

theorem setByte_padBlock (p : Bytes) (c : Byte) (hp : p.length < 16) :
    setByte (padBlock p) p.length c = padBlock (p ++ [c]) := by
  have hzeros : 16 - (p ++ [c]).length = 15 - p.length := by
    rw [List.length_append, List.length_singleton]
    omega
  rw [padBlock, padBlock, setByte_partial p c hp, hzeros]

theorem absorb_eq_foldBlock_padBlock (y : Block) (p : Bytes) (h : Block) (h1 : 0 < p.length) (h2 : p.length ≤ 16) :
    absorb y p h = foldBlock y (padBlock p) h := absorb_short y p h h1 h2

theorem wholeBlocks_append_partialBlock (b : Bytes) : wholeBlocks b ++ partialBlock b = b :=
  List.take_append_drop _ b

theorem wholeBlocks_length (b : Bytes) : (wholeBlocks b).length = 16 * (b.length / 16) := by
  rw [wholeBlocks, List.length_take]
  omega

theorem partialBlock_length (b : Bytes) : (partialBlock b).length = b.length % 16 := by
  rw [partialBlock, List.length_drop]
  omega

/-- The two parts of a string are told by their lengths alone. -/
theorem wholeBlocks_partialBlock_append {a p : Bytes} (ha : 16 ∣ a.length) (hp : p.length < 16) :
    wholeBlocks (a ++ p) = a ∧ partialBlock (a ++ p) = p := by
  have hlen : 16 * ((a ++ p).length / 16) = a.length := by
    rw [List.length_append]
    omega
  exact ⟨List.take_left' hlen.symm, List.drop_left' hlen.symm⟩

theorem absorb_eq_absorb_partialBlock (y : Block) (b : Bytes) (h : Block) :
    absorb y b h = absorb (absorb y (wholeBlocks b) h) (partialBlock b) h := by
  rw [← absorb_append y _ _ h ⟨_, wholeBlocks_length b⟩, wholeBlocks_append_partialBlock]

theorem hashSoFar_append {a p : Bytes} (s : State) (ha : 16 ∣ a.length) (hp : p.length < 16) :
    hashSoFar (a ++ p) s = { s with y := absorb s.y a s.h, buf := padBlock p } := by
  obtain ⟨hwhole, hpart⟩ := wholeBlocks_partialBlock_append ha hp
  rw [hashSoFar, hwhole, hpart]

theorem hashSoFar_nil {s : State} (hbuf : s.buf = 0) : hashSoFar [] s = s := by
  rw [← List.append_nil [], hashSoFar_append s (by simp) (by simp), absorb_nil, padBlock_nil, ← hbuf]

/-- R134 keeps the reading of `Y` and `BUF`: the sixteenth byte of a block folds the block, an earlier one stays in `BUF`. -/
theorem absorbByte_hashSoFar (c : Byte) (b : Bytes) (s : State) :
    absorbByte c (b.length % 16) (hashSoFar b s) = hashSoFar (b ++ [c]) s := by
  have hwhole : 16 ∣ (wholeBlocks b).length := ⟨_, wholeBlocks_length b⟩
  have hlen := partialBlock_length b
  have hset := setByte_padBlock (partialBlock b) c (by omega)
  have hsplit : b ++ [c] = wholeBlocks b ++ (partialBlock b ++ [c]) := by
    rw [← List.append_assoc, wholeBlocks_append_partialBlock]
  rw [← hlen, hsplit]
  rcases absorbByte_cases c (partialBlock b).length (hashSoFar b s) with ⟨hlast, habsorb⟩ | ⟨hearly, habsorb⟩
  · have hblock : (partialBlock b ++ [c]).length = 16 := by simp [hlast]
    have hall : 16 ∣ (wholeBlocks b ++ (partialBlock b ++ [c])).length := by
      rw [List.length_append, hblock]
      omega
    rw [← List.append_nil (wholeBlocks b ++ _), hashSoFar_append s hall (by simp), absorb_append _ _ _ _ hwhole,
      absorb_eq_foldBlock_padBlock _ _ _ (by omega) hblock.le, padBlock_nil, habsorb, ← hset]
    rfl
  · have hshort : (partialBlock b ++ [c]).length < 16 := by
      rw [List.length_append, List.length_singleton]
      omega
    rw [hashSoFar_append s hwhole hshort, habsorb, ← hset]
    rfl

/-- The loop of R139 after its first `n` bytes. -/
theorem foldl_absorbByte_eq_hashSoFar (data : Bytes) {s : State} (hbuf : s.buf = 0) {n : Nat} (hn : n ≤ data.length) :
    (List.range n).foldl (fun t k => absorbByte (data.getD k 0) (k % 16) t) s = hashSoFar (data.take n) s := by
  induction n with
  | zero => exact (hashSoFar_nil hbuf).symm
  | succ n ih =>
    have hlen : (data.take n).length = n := List.length_take_of_le (by omega)
    have hstep := absorbByte_hashSoFar (data.getD n 0) (data.take n) s
    rw [hlen] at hstep
    rw [List.range_succ, List.foldl_concat, ih (by omega), hstep, List.getD_eq_getElem data 0 hn, List.take_concat_get']

/-- R135 completes the hash, whether or not a partial block is left. -/
theorem flush_hashSoFar (b : Bytes) (s : State) :
    flush (b.length % 16) (hashSoFar b s) = { s with y := absorb s.y b s.h, buf := 0 } := by
  have hlen := partialBlock_length b
  rw [absorb_eq_absorb_partialBlock, ← hlen]
  rcases flush_cases (partialBlock b).length (hashSoFar b s) with ⟨hnone, hflush⟩ | ⟨hsome, hflush⟩
  · rw [hflush, hashSoFar, List.length_eq_zero_iff.mp hnone, absorb_nil, padBlock_nil]
  · rw [hflush, absorb_eq_foldBlock_padBlock _ _ _ (by omega) (by omega)]
    rfl

end Sys2Proof.Machine

namespace Sys2Proof.Proofs

open Sys2Proof.Machine

/-- Settles O44: after all its bytes the string stands in `Y` and `BUF` as `hashSoFar` says, and the flush folds what is in `BUF`. -/
theorem byteSerialHashAgreesWithBlockwise : Obligations.ByteSerialHashAgreesWithBlockwise := by
  intro data s hbuf
  rw [foldl_absorbByte_eq_hashSoFar data hbuf le_rfl, List.take_length, flush_hashSoFar, ← hbuf]

end Sys2Proof.Proofs
end

section
/-!
The length block (R136).
-/
namespace Sys2Proof.Machine

/-- The bytes of two values side by side are the bytes of the first followed by those of the second (R19, R65). -/
theorem toBytesBE_append {w : Nat} (m n : Nat) (u : BitVec w) (v : BitVec (8 * n)) :
    toBytesBE (m + n) (u ++ v) = toBytesBE m u ++ toBytesBE n v := by
  refine List.ext_getElem (by simp) fun k hk _ => ?_
  rw [toBytesBE_length] at hk
  rw [toBytesBE_getElem]
  by_cases hfirst : k < m
  · have hpos : 8 * (m + n - 1 - k) = 8 * n + 8 * (m - 1 - k) := by omega
    rw [List.getElem_append_left (by simpa using hfirst), toBytesBE_getElem, hpos]
    refine BitVec.eq_of_getLsbD_eq fun i hi => ?_
    have hhigh : ¬ 8 * n + 8 * (m - 1 - k) + i < 8 * n := by omega
    have hindex : 8 * n + 8 * (m - 1 - k) + i - 8 * n = 8 * (m - 1 - k) + i := by omega
    simp [BitVec.getLsbD_append, hi, hhigh, hindex]
  · have hpos : 8 * (m + n - 1 - k) = 8 * (n - 1 - (k - m)) := by omega
    rw [List.getElem_append_right (by simpa using hfirst), toBytesBE_getElem, toBytesBE_length, hpos]
    refine BitVec.eq_of_getLsbD_eq fun i hi => ?_
    have hlow : 8 * (n - 1 - (k - m)) + i < 8 * n := by omega
    simp [BitVec.getLsbD_append, hi, hlow]

theorem lenBlock_eq_append (a c : Nat) :
    lenBlock a c = (BitVec.ofNat 64 (8 * a) ++ BitVec.ofNat 64 (8 * c) : BitVec 128) := by
  rw [lenBlock, be64, be64, ← toBytesBE_append]
  exact blk_bytes16 _

/-- Below the bound of R12 neither bit length wraps. -/
theorem lenBlock_toNat {a c : Nat} (ha : a < 2 ^ 61) (hc : c < 2 ^ 61) :
    (lenBlock a c).toNat = 8 * a * 2 ^ 64 + 8 * c := by
  have hafits : 8 * a < 2 ^ 64 := by omega
  have hcfits : 8 * c < 2 ^ 64 := by omega
  rw [lenBlock_eq_append, BitVec.toNat_append, BitVec.toNat_ofNat, BitVec.toNat_ofNat, Nat.mod_eq_of_lt hafits,
    Nat.mod_eq_of_lt hcfits, ← Nat.shiftLeft_add_eq_or_of_lt hcfits, Nat.shiftLeft_eq]

theorem lenBlock_zero_zero : lenBlock 0 0 = 0 := lenBlock_eq_append 0 0

/-- The corner case of R131 that every `H` shares. -/
theorem foldBlock_zero_zero (h : Block) : foldBlock 0 0 h = 0 := zero_gfMul h

end Sys2Proof.Machine

namespace Sys2Proof.Proofs

open Sys2Proof.Machine

/-- Settles O45: the layout is `lenBlock_eq_append` and its value `lenBlock_toNat`; the empty message's block is 0. -/
theorem lengthBlockHoldsBothBitLengths : Obligations.LengthBlockHoldsBothBitLengths := by
  refine ⟨fun a c ha hc => ⟨lenBlock_eq_append a c, lenBlock_toNat ha hc⟩, lenBlock_zero_zero, fun h => ?_⟩
  rw [lenBlock_zero_zero, foldBlock_zero_zero]

end Sys2Proof.Proofs
end

section
/-!
The counter block under `inc32` (R151) and over the blocks of a message (R157). Its two parts are spelled as in the definition:
`extractLsb' 32 96` for the upper 96 bits, `extractLsb' 0 32` for the low word.
-/
namespace Sys2Proof.Machine

@[simp] theorem inc32_upper (c : Block) : (inc32 c).extractLsb' 32 96 = c.extractLsb' 32 96 :=
  BitVec.extractLsb'_append_eq_left

@[simp] theorem inc32_low (c : Block) : (inc32 c).extractLsb' 0 32 = c.extractLsb' 0 32 + 1 :=
  BitVec.extractLsb'_append_eq_right

theorem iterate_inc32_upper (n : Nat) (j : Block) : (inc32^[n] j).extractLsb' 32 96 = j.extractLsb' 32 96 := by
  induction n with
  | zero => rfl
  | succ n ih => rw [Function.iterate_succ_apply', inc32_upper, ih]

theorem iterate_inc32_low (n : Nat) (j : Block) :
    (inc32^[n] j).extractLsb' 0 32 = j.extractLsb' 0 32 + BitVec.ofNat 32 n := by
  induction n with
  | zero => exact (BitVec.add_zero _).symm
  | succ n ih =>
    rw [Function.iterate_succ_apply', inc32_low, ih, BitVec.add_assoc, BitVec.ofNat_add]
    rfl

/-- Equal counter blocks are a multiple of 2^32 increments apart: the low word alone tells. -/
theorem modEq_of_iterate_inc32_eq {j : Block} {m n : Nat} (h : inc32^[m] j = inc32^[n] j) : m ≡ n [MOD 2 ^ 32] := by
  have hlow : j.extractLsb' 0 32 + BitVec.ofNat 32 m = j.extractLsb' 0 32 + BitVec.ofNat 32 n := by
    rw [← iterate_inc32_low, ← iterate_inc32_low, h]
  have hcount : BitVec.ofNat 32 m = BitVec.ofNat 32 n := (BitVec.add_right_inj _).mp hlow
  simpa [Nat.ModEq] using congrArg BitVec.toNat hcount

end Sys2Proof.Machine

namespace Sys2Proof.Proofs

open Sys2Proof.Machine

/-- Settles O46, part by part: `inc32_upper`, and `inc32_low` read as a number. -/
theorem incrementTouchesOnlyTheLowWord : Obligations.IncrementTouchesOnlyTheLowWord := by
  intro c
  have hlow : ((inc32 c).extractLsb' 0 32).toNat = ((c.extractLsb' 0 32).toNat + 1) % 2 ^ 32 := by
    rw [inc32_low, BitVec.toNat_add]
    rfl
  exact ⟨inc32_upper c, hlow⟩

/-- Settles O47: both counts are below 2^32, so `modEq_of_iterate_inc32_eq` would make them the same. -/
theorem counterBlocksOfAMessageAreDistinct : Obligations.CounterBlocksOfAMessageAreDistinct := by
  intro j m n hmn hn
  refine ⟨fun heq => ?_, iterate_inc32_upper n j⟩
  have hmod : m ≡ n [MOD 2 ^ 32] := modEq_of_iterate_inc32_eq heq
  exact hmn.ne (hmod.eq_of_lt_of_lt (by omega) (by omega))

end Sys2Proof.Proofs
end

section
/-!
The initial counter block of a message (R171 to R174).
-/
namespace Sys2Proof.Machine

theorem deriveJ0_of_length_eq {iv : Bytes} (h : Block) (hlen : iv.length = 12) : deriveJ0 h iv = blk (iv ++ be32 1) :=
  if_pos hlen

theorem deriveJ0_of_length_ne {iv : Bytes} (h : Block) (hlen : iv.length ≠ 12) :
    deriveJ0 h iv = foldBlock (absorb 0 iv h) (ivlenBlock iv.length) h :=
  if_neg hlen

/-- R171 writes the block in two ways, as 16 bytes and as `{ blk96(iv), 0x00000001 }`: they are the same block. -/
theorem deriveJ0_eq_append {iv : Bytes} (h : Block) (hlen : iv.length = 12) :
    deriveJ0 h iv = (ofBytesBE 96 iv ++ 1#32 : BitVec 128) := by
  have hbytes : iv ++ be32 1 = bytes16 (ofBytesBE 96 iv ++ 1#32 : BitVec 128) := by
    rw [bytes16, toBytesBE_append 12 4, toBytesBE_ofBytesBE 12 iv hlen]
    rfl
  rw [deriveJ0_of_length_eq h hlen, hbytes, blk_bytes16]

/-- The IV's length block is the length block of a message of as many data bytes and no associated data (R136, R173). -/
theorem ivlenBlock_eq_lenBlock (n : Nat) : ivlenBlock n = lenBlock 0 n := rfl

/-- Below the bound of R12 the bit length does not wrap. -/
theorem ivlenBlock_eq_ofNat {n : Nat} (hn : n < 2 ^ 61) : ivlenBlock n = BitVec.ofNat 128 (8 * n) := by
  have hfits : 8 * n < 2 ^ 128 := by omega
  refine BitVec.eq_of_toNat_eq ?_
  rw [ivlenBlock_eq_lenBlock, lenBlock_toNat (by decide) hn, BitVec.toNat_ofNat, Nat.mod_eq_of_lt hfits]
  omega

theorem zero_foldBlock (b h : Block) : foldBlock 0 b h = gfMul b h :=
  congrArg (gfMul · h) BitVec.zero_xor

end Sys2Proof.Machine

namespace Sys2Proof.Proofs

open Sys2Proof.Machine

/-- Settles O24: the IV is read off the bytes of R171 (`deriveJ0_of_length_eq`), the counter value off its words
(`deriveJ0_eq_append`). -/
theorem j0OfANinetySixBitIv : Obligations.J0OfANinetySixBitIv := by
  intro h iv hlen
  constructor
  · have hblock : (iv ++ be32 1).length = 16 := by simp [be32, hlen]
    rw [deriveJ0_of_length_eq h hlen, bytes16_blk _ hblock, List.take_left' hlen]
  · rw [deriveJ0_eq_append h hlen]
    exact BitVec.extractLsb'_append_eq_right

/-- Settles O25: the last fold is with `ivlenBlock_eq_ofNat`; an IV of one block is folded once, from the accumulator 0. -/
theorem j0OfAnyOtherIv : Obligations.J0OfAnyOtherIv := by
  constructor
  · intro h iv hlen hbound
    rw [deriveJ0_of_length_ne h hlen, ivlenBlock_eq_ofNat hbound, foldBlock]
  · intro h iv hpos hshort
    rw [absorb_eq_foldBlock_padBlock 0 iv h hpos hshort, zero_foldBlock, padBlock]

end Sys2Proof.Proofs
end

section
/-!
The comparison of tags (R179).
-/
namespace Sys2Proof.Machine

/-- The loop of R179 from any accumulator: a set bit is never cleared, and the xor of two bytes has one unless they are equal. -/
theorem foldl_or_zipWith_xor_eq_zero_iff {a b : Bytes} (hlen : a.length = b.length) (acc : Byte) :
    (List.zipWith (· ^^^ ·) a b).foldl (· ||| ·) acc = 0 ↔ acc = 0 ∧ a = b := by
  induction a generalizing b acc with
  | nil =>
    obtain rfl : b = [] := List.length_eq_zero_iff.mp hlen.symm
    simp
  | cons x xs ih =>
    cases b with
    | nil => simp at hlen
    | cons y ys =>
      have htails : xs.length = ys.length := by simpa using hlen
      have hhead : acc ||| (x ^^^ y) = 0 ↔ acc = 0 ∧ x = y :=
        BitVec.or_eq_zero_iff.trans (and_congr_right' BitVec.xor_eq_zero_iff)
      rw [List.zipWith_cons_cons, List.foldl_cons, ih htails, hhead, and_assoc, List.cons.injEq]

theorem ctEq_iff_eq {a b : Bytes} (hlen : a.length = b.length) : ctEq a b = true ↔ a = b := by
  rw [ctEq, beq_iff_eq, foldl_or_zipWith_xor_eq_zero_iff hlen]
  exact and_iff_right rfl

end Sys2Proof.Machine

namespace Sys2Proof.Proofs

open Sys2Proof.Machine

/-- Settles O36: the statement is `ctEq_iff_eq` for all strings. -/
theorem comparisonIsByteStringEquality : Obligations.ComparisonIsByteStringEquality :=
  fun _ _ => ctEq_iff_eq

end Sys2Proof.Proofs
end

section
/-!
The full tag and its truncations (R176, R177, R181).
-/
namespace Sys2Proof.Machine

/-- The 128-bit tag of a message, before truncation (R176, R182). -/
def fullTag (c : Cipher) (ks : Option KeySchedule) (iv aad ct : Bytes) : Block :=
  maskTag c ks (deriveJ0 (hashSubkey c ks) iv) (ghashMsg (hashSubkey c ks) aad ct)

/-- The tag length enters at the truncation alone (R181). -/
theorem gcmTag_eq_msb_fullTag (c : Cipher) (ks : Option KeySchedule) (iv aad ct : Bytes) (t : Nat) :
    gcmTag c ks iv aad ct t = msb (fullTag c ks iv aad ct) t := rfl

theorem msb_prefix_msb (tag : Block) {t1 t2 : Nat} (h : t1 ≤ t2) : msb tag t1 <+: msb tag t2 :=
  List.take_prefix_take_left (Nat.div_le_div_right h)

end Sys2Proof.Machine

namespace Sys2Proof.Proofs

open Sys2Proof.Machine

/-- Settles O37: the one tag is `fullTag`, and truncations of one block are prefixes by `msb_prefix_msb`. -/
theorem truncatedTagsArePrefixes : Obligations.TruncatedTagsArePrefixes := by
  intro c ks iv aad ct
  refine ⟨⟨fullTag c ks iv aad ct, gcmTag_eq_msb_fullTag c ks iv aad ct⟩, fun t1 t2 h => ?_⟩
  rw [gcmTag_eq_msb_fullTag, gcmTag_eq_msb_fullTag]
  exact msb_prefix_msb _ h

end Sys2Proof.Proofs
end

section
/-!
An UPDATE split in two (R194, R200): the loop goes on from where it stopped, and does not see that a response was given in
between.
-/
namespace Sys2Proof.Machine

/-! `CODE` and the response stream, all that an answer writes, are read by no part of the loop of R194. -/

theorem beginByte_respond (c : Cipher) (e : Status) (out : Bytes) (s : State) :
    beginByte c (respond e out s) = respond e out (beginByte c s) := by
  rw [beginByte, beginByte, respond_dataLen]
  split <;> rfl

theorem absorbByte_respond (x : Byte) (p : Nat) (e : Status) (out : Bytes) (s : State) :
    absorbByte x p (respond e out s) = respond e out (absorbByte x p s) := by
  simp only [absorbByte, respond_y, respond_buf, respond_h]
  split <;> rfl

theorem updateByte_respond (c : Cipher) (dir : Dir) (x : Byte) (e : Status) (out : Bytes) (s : State) :
    updateByte c dir x (respond e out s) = (respond e out (updateByte c dir x s).1, (updateByte c dir x s).2) := by
  have hout : (updateByte c dir x (respond e out s)).2 = (updateByte c dir x s).2 := by
    simp only [updateByte_out, beginByte_respond, respond_ksb, respond_dataLen]
  have hstate : (updateByte c dir x (respond e out s)).1 = respond e out (updateByte c dir x s).1 := by
    rw [updateByte_state, hout, beginByte_respond, absorbByte_respond, updateByte_state]
    rfl
  exact Prod.ext hstate hout

theorem updateLoop_respond (c : Cipher) (dir : Dir) (chunk : Bytes) (e : Status) (out : Bytes) (s : State) :
    updateLoop c dir chunk (respond e out s) =
      (respond e out (updateLoop c dir chunk s).1, (updateLoop c dir chunk s).2) := by
  induction chunk generalizing s with
  | nil => rfl
  | cons x xs ih => simp only [updateLoop_cons, updateByte_respond, ih]

theorem updateLoop_succeed (c : Cipher) (dir : Dir) (chunk : Bytes) (out : Bytes) (s : State) :
    updateLoop c dir chunk (succeed out s) =
      (succeed out (updateLoop c dir chunk s).1, (updateLoop c dir chunk s).2) :=
  updateLoop_respond c dir chunk .ok out s

/-! The command: R233's bound written out, `MAX_DATA_BYTES` being `2^36 - 32` (R11). -/

theorem updateCommand_eq_succeed {chunk : Bytes} {s : State} (c : Cipher) (dir : Dir) (hst : s.st = .active)
    (hbound : s.dataLen.toNat + chunk.length ≤ 2 ^ 36 - 32) :
    updateCommand c dir chunk s = succeed (updateLoop c dir chunk s).2 (updateLoop c dir chunk s).1 := by
  have haccepts : updateAccepts s.st = true := by rw [hst]; rfl
  have hfits : dataFits s.dataLen chunk = true := decide_eq_true hbound
  rcases updateCommand_cases c dir chunk s with ⟨hrefused, -⟩ | ⟨-, htooLong, -⟩ | ⟨-, -, h⟩
  · exact absurd haccepts (Bool.eq_false_iff.mp hrefused)
  · exact absurd hfits (Bool.eq_false_iff.mp htooLong)
  · exact h

theorem updateCommand_rsp {chunk : Bytes} {s : State} (c : Cipher) (dir : Dir) (hst : s.st = .active)
    (hbound : s.dataLen.toNat + chunk.length ≤ 2 ^ 36 - 32) :
    (updateCommand c dir chunk s).rsp = s.rsp ++ responsePacket 0 .active (updateLoop c dir chunk s).2 := by
  rw [updateCommand_eq_succeed c dir hst hbound, succeed_rsp, updateLoop_rsp, updateLoop_st, hst]

theorem updateCommand_st {chunk : Bytes} {s : State} (c : Cipher) (dir : Dir) (hst : s.st = .active)
    (hbound : s.dataLen.toNat + chunk.length ≤ 2 ^ 36 - 32) : (updateCommand c dir chunk s).st = .active := by
  rw [updateCommand_eq_succeed c dir hst hbound, succeed_st, updateLoop_st, hst]

/-- Within the bound the 64-bit counter does not wrap (R40). -/
theorem updateCommand_dataLen_toNat {chunk : Bytes} {s : State} (c : Cipher) (dir : Dir) (hst : s.st = .active)
    (hbound : s.dataLen.toNat + chunk.length ≤ 2 ^ 36 - 32) :
    (updateCommand c dir chunk s).dataLen.toNat = s.dataLen.toNat + chunk.length := by
  rw [updateCommand_eq_succeed c dir hst hbound, succeed_dataLen, updateLoop_dataLen, BitVec.toNat_add, BitVec.toNat_ofNat]
  omega

/-- Each of the two UPDATEs is within the bound when the joined one is (R200, R233). -/
theorem bounds_of_append_bound {a b : Bytes} {s : State} (c : Cipher) (dir : Dir) (hst : s.st = .active)
    (hbound : s.dataLen.toNat + (a ++ b).length ≤ 2 ^ 36 - 32) :
    s.dataLen.toNat + a.length ≤ 2 ^ 36 - 32 ∧
    (updateCommand c dir a s).dataLen.toNat + b.length ≤ 2 ^ 36 - 32 := by
  rw [List.length_append, ← Nat.add_assoc] at hbound
  have ha : s.dataLen.toNat + a.length ≤ 2 ^ 36 - 32 := by omega
  exact ⟨ha, by rwa [updateCommand_dataLen_toNat c dir hst ha]⟩

/-- R200: an UPDATE of two chunks is the two UPDATEs with one response in the place of theirs. -/
theorem updateCommand_append {a b : Bytes} {s : State} (c : Cipher) (dir : Dir) (hst : s.st = .active)
    (hbound : s.dataLen.toNat + (a ++ b).length ≤ 2 ^ 36 - 32) :
    updateCommand c dir (a ++ b) s =
      { updateCommand c dir b (updateCommand c dir a s) with
        rsp := s.rsp ++ responsePacket 0 .active
          ((updateLoop c dir a s).2 ++ (updateLoop c dir b (updateCommand c dir a s)).2) } := by
  obtain ⟨ha, hb⟩ := bounds_of_append_bound c dir hst hbound
  have hst1 := updateCommand_st c dir hst ha
  have htwo : updateCommand c dir b (updateCommand c dir a s) =
      succeed (updateLoop c dir b (updateCommand c dir a s)).2
        (succeed (updateLoop c dir a s).2 (updateLoop c dir (a ++ b) s).1) := by
    rw [updateCommand_eq_succeed c dir hst1 hb, updateCommand_eq_succeed c dir hst ha, updateLoop_succeed, updateLoop_append]
  have hout : (updateLoop c dir (a ++ b) s).2 =
      (updateLoop c dir a s).2 ++ (updateLoop c dir b (updateCommand c dir a s)).2 := by
    rw [updateCommand_eq_succeed c dir hst ha, updateLoop_succeed, updateLoop_append]
  rw [htwo, ← hout, ← updateCommand_rsp c dir hst hbound, updateCommand_eq_succeed c dir hst hbound]
  rfl

theorem exists_dir_exec_eq_updateCommand {u : Bytes → Instr} (hu : u = .updateE ∨ u = .updateD) :
    ∃ dir, ∀ chunk s, exec (u chunk) s = .next (updateCommand Config.cipher dir chunk s) := by
  rcases hu with rfl | rfl
  · exact ⟨.enc, fun chunk s => exec_eq_commandFor (.updateE chunk) s⟩
  · exact ⟨.dec, fun chunk s => exec_eq_commandFor (.updateD chunk) s⟩

end Sys2Proof.Machine

namespace Sys2Proof.Proofs

open Sys2Proof.Machine

/-- Settles O31: the two UPDATEs are within the bound when the joined one is, and `updateCommand_append` joins them. -/
theorem chunkBoundariesDoNotMatter : Obligations.ChunkBoundariesDoNotMatter := by
  intro u a b s hu hst hbound
  obtain ⟨dir, hexec⟩ := exists_dir_exec_eq_updateCommand hu
  obtain ⟨ha, hb⟩ := bounds_of_append_bound Config.cipher dir hst hbound
  have hst1 := updateCommand_st Config.cipher dir hst ha
  refine ⟨_, _, _, _, hexec a s, updateCommand_rsp Config.cipher dir hst ha, hexec b _,
    updateCommand_rsp Config.cipher dir hst1 hb, ?_⟩
  rw [hexec, updateCommand_append Config.cipher dir hst hbound]

end Sys2Proof.Proofs
end

section
/-!
Commands out of sequence (R190, R237).
-/
namespace Sys2Proof.Machine

/-! The states R190 lists for each command, and those it leaves out. -/

theorem initAccepts_iff (st : EngineState) : initAccepts st = true ↔ st = .uninitialized ∨ st = .ready := by
  cases st <;> decide

theorem initAccepts_eq_false_iff (st : EngineState) : initAccepts st = false ↔ st = .active ∨ st = .finished := by
  cases st <;> decide

theorem startAccepts_iff (st : EngineState) : startAccepts st = true ↔ st = .ready ∨ st = .finished := by
  cases st <;> decide

theorem startAccepts_eq_false_iff (st : EngineState) : startAccepts st = false ↔ st = .uninitialized ∨ st = .active := by
  cases st <;> decide

theorem updateAccepts_iff (st : EngineState) : updateAccepts st = true ↔ st = .active := by
  cases st <;> decide

theorem updateAccepts_eq_false_iff (st : EngineState) : updateAccepts st = false ↔ st ≠ .active := by
  rw [← Bool.not_eq_true, updateAccepts_iff]

theorem finishAccepts_iff (st : EngineState) : finishAccepts st = true ↔ st = .active := by
  cases st <;> decide

theorem finishAccepts_eq_false_iff (st : EngineState) : finishAccepts st = false ↔ st ≠ .active := by
  rw [← Bool.not_eq_true, finishAccepts_iff]

/-! The check of `ST` comes first: no operand is looked at where it fails (R239). -/

theorem initCommand_of_out_of_sequence (c : Cipher) (key : Bytes) {s : State} (h : initAccepts s.st = false) :
    initCommand c key s = raise .illegalSequence s := by
  simpa [h] using initCommand_cases c key s

theorem startCommand_of_out_of_sequence (iv aad : Bytes) {s : State} (h : startAccepts s.st = false) :
    startCommand iv aad s = raise .illegalSequence s := by
  simpa [h] using startCommand_cases iv aad s

theorem updateCommand_of_out_of_sequence (c : Cipher) (dir : Dir) (chunk : Bytes) {s : State}
    (h : updateAccepts s.st = false) : updateCommand c dir chunk s = raise .illegalSequence s := by
  simpa [h] using updateCommand_cases c dir chunk s

theorem finishECommand_of_out_of_sequence (c : Cipher) (taglen : BitVec 8) {s : State} (h : finishAccepts s.st = false) :
    finishECommand c taglen s = raise .illegalSequence s := by
  simpa [h] using finishECommand_cases c taglen s

theorem finishDCommand_of_out_of_sequence (c : Cipher) (taglen : BitVec 8) (tag : Bytes) {s : State}
    (h : finishAccepts s.st = false) : finishDCommand c taglen tag s = raise .illegalSequence s := by
  simpa [h] using finishDCommand_cases c taglen tag s

end Sys2Proof.Machine

namespace Sys2Proof.Proofs

open Sys2Proof.Machine

/-- Settles O14: each command raises IllegalSequence by its own check of `ST`, and that error has no effect of its own
(`raise_eq`). -/
theorem commandOutOfSequenceIsRejected : Obligations.CommandOutOfSequenceIsRejected := by
  intro i s hst
  have hraise : commandFor Config.cipher i s = raise .illegalSequence s := by
    cases i with
    | init key => exact initCommand_of_out_of_sequence _ key ((initAccepts_eq_false_iff s.st).mpr hst)
    | start iv aad => exact startCommand_of_out_of_sequence iv aad ((startAccepts_eq_false_iff s.st).mpr hst)
    | updateE chunk => exact updateCommand_of_out_of_sequence _ .enc chunk ((updateAccepts_eq_false_iff s.st).mpr hst)
    | updateD chunk => exact updateCommand_of_out_of_sequence _ .dec chunk ((updateAccepts_eq_false_iff s.st).mpr hst)
    | finishE taglen => exact finishECommand_of_out_of_sequence _ taglen ((finishAccepts_eq_false_iff s.st).mpr hst)
    | finishD taglen tag => exact finishDCommand_of_out_of_sequence _ taglen tag ((finishAccepts_eq_false_iff s.st).mpr hst)
  rw [exec_eq_commandFor, hraise, raise_eq .illegalSequence s (by decide) (by decide)]
  rfl

end Sys2Proof.Proofs
end

section
/-!
INIT with a key of no supported length (R231) and START with the empty IV (R232).
-/
namespace Sys2Proof.Machine

theorem keySetup_eq_none_iff (c : Cipher) (key : Bytes) : keySetup c key = none ↔ key.length ∉ c.keySizes := by
  simp [keySetup]

theorem initCommand_of_unsupported_key {c : Cipher} {key : Bytes} {s : State} (hst : initAccepts s.st = true)
    (hkey : keySetup c key = none) : initCommand c key s = raise .invalidKeyLength s := by
  simpa [hst, hkey] using initCommand_cases c key s

theorem startCommand_of_empty_iv (aad : Bytes) {s : State} (hst : startAccepts s.st = true) :
    startCommand [] aad s = raise .invalidIVLength s := by
  simpa [hst] using startCommand_cases [] aad s

theorem startCommand_eq_succeed {iv : Bytes} (aad : Bytes) {s : State} (hst : startAccepts s.st = true) (hiv : iv ≠ []) :
    startCommand iv aad s = succeed [] (startEffect iv aad s) := by
  simpa [hst, hiv] using startCommand_cases iv aad s

end Sys2Proof.Machine

namespace Sys2Proof.Proofs

open Sys2Proof.Machine

/-- Settles O21: InvalidKeyLength is one of the two errors with an effect, and its effect is `resetRegisters`. -/
theorem initWithBadKeyLengthResetsTheInstance : Obligations.InitWithBadKeyLengthResetsTheInstance := by
  intro key s hst hkey
  have hraise : commandFor Config.cipher (.init key) s = raise .invalidKeyLength s :=
    initCommand_of_unsupported_key ((initAccepts_iff s.st).mpr hst) ((keySetup_eq_none_iff Config.cipher key).mpr hkey)
  rw [exec_eq_commandFor, hraise, raise_invalidKeyLength]
  rfl

/-- Settles O23: past the check of `ST` the length of the IV is START's only check. -/
theorem startRejectsExactlyTheEmptyIv : Obligations.StartRejectsExactlyTheEmptyIv := by
  intro aad s hst
  have haccepts : startAccepts s.st = true := (startAccepts_iff s.st).mpr hst
  constructor
  · have hraise : commandFor Config.cipher (.start [] aad) s = raise .invalidIVLength s :=
      startCommand_of_empty_iv aad haccepts
    rw [exec_eq_commandFor, hraise, raise_eq .invalidIVLength s (by decide) (by decide)]
    rfl
  · intro iv hiv
    refine ⟨startCommand iv aad s, exec_eq_commandFor (.start iv aad) s, ?_⟩
    rw [startCommand_eq_succeed aad haccepts hiv, succeed_code]

end Sys2Proof.Proofs
end

section
/-!
The data bound of UPDATE, and the errors of FINISH (R233).
-/
namespace Sys2Proof.Machine

@[simp] theorem raise_code (e : Status) (s : State) : (raise e s).code = e.number := rfl

/-- Past R233's bound the whole chunk is refused, in both directions. -/
theorem updateCommand_eq_raise_plaintextTooLong {chunk : Bytes} {s : State} (c : Cipher) (dir : Dir) (hst : s.st = .active)
    (hbound : s.dataLen.toNat + chunk.length > 2 ^ 36 - 32) : updateCommand c dir chunk s = raise .plaintextTooLong s := by
  have haccepts : updateAccepts s.st = true := (updateAccepts_iff s.st).mpr hst
  have htooLong : dataFits s.dataLen chunk = false := decide_eq_false (Nat.not_le_of_gt hbound)
  simpa [haccepts, htooLong] using updateCommand_cases c dir chunk s

/-- The statuses FINISH.E can answer (R198). -/
theorem finishECommand_code (c : Cipher) (taglen : BitVec 8) (s : State) :
    (finishECommand c taglen s).code ∈ [0, Status.invalidTagLength.number, Status.illegalSequence.number] := by
  rcases finishECommand_cases c taglen s with ⟨-, h⟩ | ⟨-, -, h⟩ | ⟨-, -, h⟩ <;> simp [h]

/-- The statuses FINISH.D can answer (R199). -/
theorem finishDCommand_code (c : Cipher) (taglen : BitVec 8) (tag : Bytes) (s : State) :
    (finishDCommand c taglen tag s).code ∈
      [0, Status.invalidTagLength.number, Status.illegalSequence.number, Status.authenticationFailed.number] := by
  rcases finishDCommand_cases c taglen tag s with ⟨-, h⟩ | ⟨-, -, h⟩ | ⟨-, -, -, h⟩ <;> rw [h]
  · simp
  · simp
  · split <;> simp

end Sys2Proof.Machine

namespace Sys2Proof.Proofs

open Sys2Proof.Machine

/-- Settles O29: both UPDATEs are `updateCommand`, which refuses the chunk; PlaintextTooLong is not among the statuses FINISH
can answer. -/
theorem updatePastTheDataBoundIsRejected : Obligations.UpdatePastTheDataBoundIsRejected := by
  constructor
  · intro chunk s hst hbound
    have hraise (dir : Dir) : updateCommand Config.cipher dir chunk s =
        { s with code := 3, rsp := s.rsp ++ responsePacket 3 .active [] } := by
      rw [updateCommand_eq_raise_plaintextTooLong _ dir hst hbound, raise_eq .plaintextTooLong s (by decide) (by decide), hst]
      rfl
    exact ⟨congrArg _ (hraise .enc), congrArg _ (hraise .dec)⟩
  · intro taglen tag s
    have hE := finishECommand_code Config.cipher taglen s
    have hD := finishDCommand_code Config.cipher taglen tag s
    refine ⟨_, _, exec_eq_commandFor (.finishE taglen) s, fun h => ?_, exec_eq_commandFor (.finishD taglen tag) s, fun h => ?_⟩
    · rw [commandFor] at h
      exact absurd (h ▸ hE) (by decide)
    · rw [commandFor] at h
      exact absurd (h ▸ hD) (by decide)

end Sys2Proof.Proofs
end

section
/-!
The tag lengths FINISH and the one-shot DECRYPT refuse (R234).
-/
namespace Sys2Proof.Machine

theorem taglenOk_eq_false_iff (t : Nat) : taglenOk t = false ↔ ¬ (t % 8 = 0 ∧ 32 ≤ t ∧ t ≤ 128) := by
  rw [← Bool.not_eq_true, taglenOk_iff]

theorem finishECommand_of_bad_taglen (c : Cipher) {taglen : BitVec 8} {s : State} (hst : s.st = .active)
    (hbad : taglenOk taglen.toNat = false) : finishECommand c taglen s = raise .invalidTagLength s := by
  simpa [(finishAccepts_iff s.st).mpr hst, hbad] using finishECommand_cases c taglen s

theorem finishDCommand_of_bad_tag (c : Cipher) {taglen : BitVec 8} {tag : Bytes} {s : State} (hst : s.st = .active)
    (hbad : taglenOk taglen.toNat = false ∨ tag.length ≠ taglen.toNat / 8) :
    finishDCommand c taglen tag s = raise .invalidTagLength s := by
  have haccepts : finishAccepts s.st = true := (finishAccepts_iff s.st).mpr hst
  rcases finishDCommand_cases c taglen tag s with ⟨hrefused, -⟩ | ⟨-, -, h⟩ | ⟨-, hok, hlen, -⟩
  · exact absurd haccepts (Bool.eq_false_iff.mp hrefused)
  · exact h
  · exact (hbad.elim (Bool.eq_false_iff.mp · hok) (· hlen)).elim

/-- R213: the host makes the checks of FINISH.D before it issues anything. -/
theorem decryptOneShot_of_bad_tag (iv aad ct : Bytes) {taglen : BitVec 8} {tag : Bytes} (s : State)
    (hbad : taglenOk taglen.toNat = false ∨ tag.length ≠ taglen.toNat / 8) :
    decryptOneShot iv aad ct tag taglen s = .next (s, .error Status.invalidTagLength.number) := by
  have hcheck : ¬ (taglenOk taglen.toNat && givenTagFits taglen (some tag.length)) = true := by
    simpa [givenTagFits, imp_iff_not_or] using hbad
  exact if_neg hcheck

end Sys2Proof.Machine

namespace Sys2Proof.Proofs

open Sys2Proof.Machine

/-- Settles O34: the statement's condition is the negation of the checks FINISH and the host make. -/
theorem finishWithBadTagLengthIsRejected : Obligations.FinishWithBadTagLengthIsRejected := by
  intro taglen tag s
  have hraise (hst : s.st = .active) :
      raise .invalidTagLength s = { s with code := 4, rsp := s.rsp ++ responsePacket 4 .active [] } := by
    rw [raise_eq .invalidTagLength s (by decide) (by decide), hst]
    rfl
  rw [← taglenOk_eq_false_iff]
  refine ⟨fun hst hbad => ?_, fun hbad => ⟨fun hst => ?_, fun iv aad ct => decryptOneShot_of_bad_tag iv aad ct s hbad⟩⟩
  · rw [exec_eq_commandFor, commandFor, finishECommand_of_bad_taglen _ hst hbad, hraise hst]
  · rw [exec_eq_commandFor, commandFor, finishDCommand_of_bad_tag _ hst hbad, hraise hst]

end Sys2Proof.Proofs
end

section
/-!
The verdict of FINISH.D (R199, R235).
-/
namespace Sys2Proof.Machine

/-- What is left of a message when it is closed: its key, its subkey and the streams (R48, R197). -/
theorem finishEffect_state (c : Cipher) (taglen : BitVec 8) (s : State) :
    (finishEffect c taglen s).1 =
      { s with st := .finished, j0 := 0, cb := 0, ksb := 0, y := 0, buf := 0, aadLen := 0, dataLen := 0 } := by
  simp [finishEffect, clearMessage]

/-- The tag a FINISH computes with a key bound, in the terms of R175 to R177. -/
theorem finishEffect_tag_of_ks {c : Cipher} {s : State} {k : KeySchedule} (taglen : BitVec 8) (hks : s.ks = some k) :
    (finishEffect c taglen s).2 =
      (bytes16 (foldBlock (flush (s.dataLen.toNat % 16) s).y (lenBlock s.aadLen.toNat s.dataLen.toNat) s.h
        ^^^ c.encryptBlock k s.j0)).take (taglen.toNat / 8) := by
  rw [finishEffect_tag, finalHash_y, hks]
  rfl

/-- The effect of AuthenticationFailed is what closing the message has done already (R235). -/
theorem raise_authenticationFailed_of_finishEffect (c : Cipher) (taglen : BitVec 8) (s : State) :
    raise .authenticationFailed (finishEffect c taglen s).1 = respond .authenticationFailed [] (finishEffect c taglen s).1 := by
  rw [raise_authenticationFailed, finishEffect_state]
  rfl

/-- R199: past the checks both verdicts close the message, and the comparison decides the status alone. -/
theorem finishDCommand_eq_respond (c : Cipher) {taglen : BitVec 8} {tag : Bytes} {s : State} (hst : s.st = .active)
    (hok : taglenOk taglen.toNat = true) (hlen : tag.length = taglen.toNat / 8) :
    finishDCommand c taglen tag s =
      respond (if (finishEffect c taglen s).2 = tag then .ok else .authenticationFailed) [] (finishEffect c taglen s).1 := by
  have haccepts : finishAccepts s.st = true := (finishAccepts_iff s.st).mpr hst
  have hlengths : (finishEffect c taglen s).2.length = tag.length := by
    obtain ⟨-, -, hmax⟩ := (taglenOk_iff taglen.toNat).mp hok
    rw [finishEffect_tag, msb_length _ hmax, hlen]
  have hcompare : finishDCommand c taglen tag s =
      if ctEq (finishEffect c taglen s).2 tag then succeed [] (finishEffect c taglen s).1
      else raise .authenticationFailed (finishEffect c taglen s).1 := by
    simpa [haccepts, hok, hlen] using finishDCommand_cases c taglen tag s
  rw [hcompare, raise_authenticationFailed_of_finishEffect, succeed]
  simp only [ctEq_iff_eq hlengths]
  split <;> rfl

end Sys2Proof.Machine

namespace Sys2Proof.Proofs

open Sys2Proof.Machine

/-- Settles O33: `finishDCommand_eq_respond` with the closed state and the computed tag written out. -/
theorem finishDComparesTheTag : Obligations.FinishDComparesTheTag := by
  intro taglen tag s k hst hks hmod hmin hmax hlen computed verdict
  have hok : taglenOk taglen.toNat = true := (taglenOk_iff taglen.toNat).mpr ⟨hmod, hmin, hmax⟩
  have htag : (finishEffect Config.cipher taglen s).2 = computed := finishEffect_tag_of_ks taglen hks
  have hverdict : Status.number (if computed = tag then .ok else .authenticationFailed) = verdict :=
    apply_ite Status.number (computed = tag) .ok .authenticationFailed
  rw [exec_eq_commandFor, commandFor, finishDCommand_eq_respond _ hst hok hlen, htag, respond, hverdict, finishEffect_state]

end Sys2Proof.Proofs
end

section
/-!
The packet of a command and its decoding (R81 to R92).
-/
namespace Sys2Proof

open Sys2Proof.Machine

/-- A command is well-formed exactly when both its operands fit their length fields (R12, R80). -/
theorem wf_iff_operand_lengths (i : Instr) : i.wf = true ↔ i.opA.length < 2 ^ 61 ∧ i.opB.length < 2 ^ 61 := by
  cases i <;> simp [Instr.wf, operandFits, Instr.opA, Instr.opB]

theorem descriptor_reservedZero (i : Instr) : ReservedZero i.descriptor := by
  simp [ReservedZero, Instr.descriptor]

@[simp] theorem opcField_descriptor (i : Instr) : opcField i.descriptor = i.opc := opcField_make ..

@[simp] theorem dirField_descriptor (i : Instr) : dirField i.descriptor = i.dirBit := dirField_make ..

@[simp] theorem taglenField_descriptor (i : Instr) : taglenField i.descriptor = i.taglenBits := taglenField_make ..

/-- The descriptor of a command is accepted as that command (R84, R86). -/
theorem decodeDescriptor_descriptor (i : Instr) : decodeDescriptor i.descriptor i.opA i.opB = .ok i := by
  have hr := descriptor_reservedZero i
  cases i with
  | init key => exact decodeDescriptor_init _ _ hr (opcField_descriptor _) (by simp [Instr.dirBit, Instr.taglenBits, Instr.opB])
  | start iv aad => exact decodeDescriptor_start _ _ hr (opcField_descriptor _) (by simp [Instr.dirBit, Instr.taglenBits])
  | updateE chunk =>
    rw [decodeDescriptor_update _ _ hr (opcField_descriptor _) (by simp [Instr.taglenBits, Instr.opB]), dirField_descriptor]
    rfl
  | updateD chunk =>
    rw [decodeDescriptor_update _ _ hr (opcField_descriptor _) (by simp [Instr.taglenBits, Instr.opB]), dirField_descriptor]
    rfl
  | finishE taglen =>
    rw [decodeDescriptor_finish _ _ hr (opcField_descriptor _) (by simp [Instr.opA, Instr.opB]), dirField_descriptor,
      taglenField_descriptor]
    rfl
  | finishD taglen tag =>
    rw [decodeDescriptor_finish _ _ hr (opcField_descriptor _) (by simp [Instr.dirBit, Instr.opB]), dirField_descriptor,
      taglenField_descriptor]
    rfl

/-- Framing finds the packet of a well-formed command: its length fields hold its operand lengths (R83). -/
theorem frame_encode_append {i : Instr} (h : i.wf = true) (rest : Bytes) :
    frame (encode i ++ rest) = .packet i.descriptor i.opA i.opB rest := by
  obtain ⟨ha, hb⟩ := (wf_iff_operand_lengths i).mp h
  refine (frame_eq_packet_iff ..).mpr ⟨rfl, ?_, ?_⟩
  · rw [descriptor_lenA, BitVec.toNat_ofNat, Nat.mod_eq_of_lt ha]
  · rw [descriptor_lenB, BitVec.toNat_ofNat, Nat.mod_eq_of_lt hb]

theorem decode_encode_append {i : Instr} (h : i.wf = true) (rest : Bytes) :
    decode (encode i ++ rest) = .command i rest := by
  simp only [decode, frame_encode_append h, decodeDescriptor_descriptor]

/-- An accepted descriptor whose length fields hold the operand lengths is the descriptor of the command it decodes to, and
carries that command's operands: no field is left over (R81, R86). -/
theorem descriptor_of_decodeDescriptor_ok {d : Descriptor} {opA opB : Bytes} {i : Instr}
    (h : decodeDescriptor d opA opB = .ok i) (ha : opA.length = (lenAField d).toNat) (hb : opB.length = (lenBField d).toNat) :
    d = i.descriptor ∧ opA = i.opA ∧ opB = i.opB := by
  obtain ⟨⟨r0, r1, r2, r3⟩, hcases⟩ := decodeDescriptor_ok_cases h
  have hlenA : lenAField d = BitVec.ofNat 61 opA.length := by rw [ha, BitVec.ofNat_toNat, BitVec.setWidth_eq]
  have hlenB : lenBField d = BitVec.ofNat 61 opB.length := by rw [hb, BitVec.ofNat_toNat, BitVec.setWidth_eq]
  have hnil : ∀ {b : Bytes} {v : BitVec 61}, b.length = v.toNat → v = 0 → b = [] := by
    rintro b v hbv rfl
    exact List.length_eq_zero_iff.mp hbv
  suffices hfields : opcField d = i.opc ∧ dirField d = i.dirBit ∧ taglenField d = i.taglenBits ∧
      opA = i.opA ∧ opB = i.opB by
    obtain ⟨ho, hd, ht, rfl, rfl⟩ := hfields
    refine ⟨descriptor_ext _ _ ?_ ?_ ?_ ?_ ?_ ?_ ?_ ?_ ?_, rfl, rfl⟩ <;>
      simp [Instr.descriptor, ho, hd, ht, hlenA, hlenB, r0, r1, r2, r3]
  rcases hcases with ⟨ho, hd, ht, hb0, rfl⟩ | ⟨ho, hd, ht, rfl⟩ | ⟨ho, hd, ht, hb0, rfl⟩ | ⟨ho, hd, ht, hb0, rfl⟩ |
    ⟨ho, hd, hb0, ha0, rfl⟩ | ⟨ho, hd, hb0, rfl⟩
  · exact ⟨ho, hd, ht, rfl, hnil hb hb0⟩
  · exact ⟨ho, hd, ht, rfl, rfl⟩
  · exact ⟨ho, hd, ht, rfl, hnil hb hb0⟩
  · exact ⟨ho, hd, ht, rfl, hnil hb hb0⟩
  · exact ⟨ho, hd, rfl, hnil ha ha0, hnil hb hb0⟩
  · exact ⟨ho, hd, rfl, rfl, hnil hb hb0⟩

/-- Decoding to a command is the head of the stream being that command's packet (R92). -/
theorem decode_eq_command_iff (stream rest : Bytes) (i : Instr) :
    decode stream = .command i rest ↔ i.wf = true ∧ stream = encode i ++ rest := by
  constructor
  · intro h
    obtain ⟨d, opA, opB, hframe, hdec⟩ := decode_command_frame h
    obtain ⟨hstream, ha, hb⟩ := (frame_eq_packet_iff ..).mp hframe
    obtain ⟨rfl, rfl, rfl⟩ := descriptor_of_decodeDescriptor_ok hdec ha hb
    exact ⟨(wf_iff_operand_lengths i).mpr ⟨ha ▸ (lenAField _).isLt, hb ▸ (lenBField _).isLt⟩, hstream⟩
  · rintro ⟨hwf, rfl⟩
    exact decode_encode_append hwf rest

/-- A table word numbers the bits of the descriptor; the operands put after it are zeros (log 4, log 10). -/
theorem decodeTableWord_eq_some {w : Nat} {i : Instr} (hwf : i.wf = true) (hword : BitVec.ofNat 192 (w % 2 ^ 192) = i.descriptor)
    (hA : i.opA = zeros i.opA.length) (hB : i.opB = zeros i.opB.length) : decodeTableWord 192 w = some i := by
  obtain ⟨ha, hb⟩ := (wf_iff_operand_lengths i).mp hwf
  have hpacket : packetOfTableWord 192 w = encode i ++ [] := by
    rw [packetOfTableWord, hword, descriptor_lenA, descriptor_lenB, BitVec.toNat_ofNat, BitVec.toNat_ofNat,
      Nat.mod_eq_of_lt ha, Nat.mod_eq_of_lt hb, ← hA, ← hB, List.append_nil, encode]
  rw [decodeTableWord, hpacket, decode_encode_append hwf]

namespace Machine

theorem step_of_decode_command {s : State} {i : Instr} {rest : Bytes} (h : decode s.cmd = .command i rest) :
    step s = exec i { s with cmd := rest } := by
  simp only [step, h, takePacket]

theorem step_of_encode_append {s : State} {i : Instr} {rest : Bytes} (hwf : i.wf = true) (hcmd : s.cmd = encode i ++ rest) :
    step s = exec i { s with cmd := rest } :=
  step_of_decode_command (by rw [hcmd, decode_encode_append hwf])

/-- A packet that stops short is never framed as a packet: the length fields are all there once 24 bytes are (R73, R83). -/
theorem frame_take_packet {d : Descriptor} {opA opB : Bytes} {n : Nat} (ha : opA.length = (lenAField d).toNat)
    (hb : opB.length = (lenBField d).toNat) (hn : n < 24 + opA.length + opB.length) :
    frame ((toBytesBE 24 d ++ opA ++ opB).take n) = if n = 0 then .idle else .truncated := by
  set packet := toBytesBE 24 d ++ opA ++ opB with hpacket
  have hlen : packet.length = 24 + opA.length + opB.length := by simp [hpacket, Nat.add_assoc]
  have hwhole : frame packet = .packet d opA opB [] := (frame_eq_packet_iff ..).mpr ⟨by simp [hpacket], ha, hb⟩
  split
  · next h0 => rw [h0, List.take_zero, frame_eq_idle_iff]
  · next h0 =>
    cases hf : frame (packet.take n) with
    | truncated => rfl
    | idle =>
      have hnil := congrArg List.length ((frame_eq_idle_iff _).mp hf)
      rw [List.length_take, List.length_nil] at hnil
      omega
    | packet d' opA' opB' rest =>
      obtain ⟨htake, ha', hb'⟩ := (frame_eq_packet_iff ..).mp hf
      have hlonger : frame packet = .packet d' opA' opB' (rest ++ packet.drop n) := by
        refine (frame_eq_packet_iff ..).mpr ⟨?_, ha', hb'⟩
        rw [← List.append_assoc, ← htake, List.take_append_drop]
      rw [hwhole] at hlonger
      injection hlonger with _ _ _ hrest
      have := congrArg List.length hrest
      simp only [List.length_nil, List.length_append, List.length_drop] at this
      omega

end Machine

end Sys2Proof

namespace Sys2Proof.Proofs

open Sys2Proof.Machine

/-- Settles O1: framing takes the packet apart where it was put together, and its descriptor is accepted as the command's. -/
theorem decodeOfEncodeIsTheCommand : Obligations.DecodeOfEncodeIsTheCommand :=
  fun _ rest h => decode_encode_append h rest

/-- Settles O2: an accepted descriptor has no field that the command it decodes to does not give back. -/
theorem decodedStreamBeginsWithItsPacket : Obligations.DecodedStreamBeginsWithItsPacket :=
  fun stream rest i => (decode_eq_command_iff stream rest i).mp

/-- Settles O5: each word is the descriptor of its command. -/
theorem tableWordsDecodeToTheirCommands : Obligations.TableWordsDecodeToTheirCommands := by
  refine ⟨?_, ?_, ?_, ?_, ?_, ?_⟩ <;>
    exact decodeTableWord_eq_some (by decide) (by decide) (by decide) (by decide)

/-- Settles O8: by O1 the stream decodes to the command, and the step is then `exec` of it. -/
theorem stepRunsTheDecodedCommand : Obligations.StepRunsTheDecodedCommand :=
  fun _ _ _ => step_of_encode_append

/-- Settles O9: framing answers `idle` or `truncated`, and `step` names the wait after it. -/
theorem noStepOnATruncatedPacket : Obligations.NoStepOnATruncatedPacket := by
  intro s d opA opB n ha hb hn hcmd
  have hframe : frame s.cmd = if n = 0 then .idle else .truncated := by rw [hcmd, frame_take_packet ha hb hn]
  by_cases h0 : n = 0
  · simp only [step, decode, hframe, h0, if_true]
  · simp only [step, decode, hframe, h0, if_false]

end Sys2Proof.Proofs
end

section
/-!
Reading a response packet (R89, R91).
-/
namespace Sys2Proof.Machine

/-! The fields of the two response words (R89). -/

theorem responseWord0_code (code : BitVec 8) (st : EngineState) : (responseWord0 code st).extractLsb' 56 8 = code := by
  simp only [responseWord0]; bv_normalize

theorem responseWord0_st (code : BitVec 8) (st : EngineState) : (responseWord0 code st).extractLsb' 54 2 = st.bits := by
  simp only [responseWord0]; bv_normalize

theorem responseWord1_outLen {n : Nat} (hn : n < 2 ^ 61) : ((responseWord1 n).extractLsb' 0 61).toNat = n := by
  have hfield : (responseWord1 n).extractLsb' 0 61 = BitVec.ofNat 61 n := by
    simp only [responseWord1]; bv_normalize
  rw [hfield, BitVec.toNat_ofNat, Nat.mod_eq_of_lt hn]

theorem responsePacket_length (code : BitVec 8) (st : EngineState) (out : Bytes) :
    (responsePacket code st out).length = 16 + out.length := by
  simp [responsePacket, ← Nat.add_assoc]

theorem responsePacket_take_eight (code : BitVec 8) (st : EngineState) (out : Bytes) :
    (responsePacket code st out).take 8 = toBytesBE 8 (responseWord0 code st) := by
  rw [responsePacket, List.append_assoc, List.take_left' (toBytesBE_length 8 _)]

theorem responsePacket_drop_sixteen (code : BitVec 8) (st : EngineState) (out : Bytes) :
    (responsePacket code st out).drop 16 = out := by
  rw [responsePacket, List.drop_left' (by simp)]

/-- A packet read with its length taken as given (R89). -/
theorem responseOfPacket_responsePacket (code : BitVec 8) (st : EngineState) (out : Bytes) :
    responseOfPacket (responsePacket code st out) = ⟨code, st.bits, out⟩ := by
  have hword : ofBytesBE 64 (toBytesBE 8 (responseWord0 code st)) = responseWord0 code st := ofBytesBE_toBytesBE 8 _
  simp only [responseOfPacket, responsePacket_take_eight, responsePacket_drop_sixteen, hword, responseWord0_code,
    responseWord0_st]

/-- A packet read off the head of a stream, its length by its own second word (R89). -/
theorem readResponse_responsePacket_append (code : BitVec 8) (st : EngineState) {out : Bytes} (rest : Bytes)
    (hout : out.length < 2 ^ 61) :
    readResponse (responsePacket code st out ++ rest) = some (⟨code, st.bits, out⟩, rest) := by
  have hlen0 : (toBytesBE 8 (responseWord0 code st)).length = 8 := toBytesBE_length ..
  have hlen1 : (toBytesBE 8 (responseWord1 out.length)).length = 8 := toBytesBE_length ..
  have hword0 : ofBytesBE 64 (toBytesBE 8 (responseWord0 code st)) = responseWord0 code st := ofBytesBE_toBytesBE 8 _
  have hword1 : ofBytesBE 64 (toBytesBE 8 (responseWord1 out.length)) = responseWord1 out.length := ofBytesBE_toBytesBE 8 _
  have hstream : responsePacket code st out ++ rest =
      toBytesBE 8 (responseWord0 code st) ++ (toBytesBE 8 (responseWord1 out.length) ++ (out ++ rest)) := by
    simp [responsePacket]
  have hbody : (responsePacket code st out ++ rest).drop 16 = out ++ rest := by
    rw [responsePacket, List.append_assoc, List.drop_left' (by simp)]
  have hlong : ¬ (responsePacket code st out ++ rest).length < 16 := by
    rw [List.length_append, responsePacket_length]
    omega
  have hwhole : ¬ (out ++ rest).length < out.length := by
    rw [List.length_append]
    omega
  rw [readResponse, if_neg hlong]
  simp only [hbody]
  simp only [hstream, List.take_left' hlen0, List.drop_left' hlen0, List.take_left' hlen1, hword0, hword1,
    responseWord1_outLen hout, responseWord0_code, responseWord0_st, if_neg hwhole, List.take_left, List.drop_left]

end Sys2Proof.Machine

namespace Sys2Proof.Proofs

open Sys2Proof.Machine

/-- Settles O6: each of the four parts of the packet is cut off at its own length. -/
theorem responsePacketReadsBack : Obligations.ResponsePacketReadsBack :=
  fun code st _ rest hout => readResponse_responsePacket_append code st rest hout

/-- Settles O7: the first eight bytes are R0, here five closed words. -/
theorem responseWordExamples : Obligations.ResponseWordExamples := by
  unfold Obligations.ResponseWordExamples
  simp only [responsePacket_take_eight]
  decide

end Sys2Proof.Proofs
end

section
/-!
The run of a command stream (R61, R70, R277).
-/
namespace Sys2Proof.Machine

/-! What stands in the command stream behind a packet is read by no command and written by none (R61, R191). -/

theorem raise_takePacket (e : Status) (rest : Bytes) (s : State) : raise e (takePacket rest s) = takePacket rest (raise e s) := by
  cases e <;> rfl

theorem beginByte_takePacket (c : Cipher) (rest : Bytes) (s : State) :
    beginByte c (takePacket rest s) = takePacket rest (beginByte c s) := by
  rw [beginByte, beginByte, takePacket_dataLen]
  split <;> rfl

theorem absorbByte_takePacket (x : Byte) (p : Nat) (rest : Bytes) (s : State) :
    absorbByte x p (takePacket rest s) = takePacket rest (absorbByte x p s) := by
  simp only [absorbByte, takePacket_y, takePacket_buf, takePacket_h]
  split <;> rfl

theorem updateByte_takePacket (c : Cipher) (dir : Dir) (x : Byte) (rest : Bytes) (s : State) :
    updateByte c dir x (takePacket rest s) = (takePacket rest (updateByte c dir x s).1, (updateByte c dir x s).2) := by
  have hout : (updateByte c dir x (takePacket rest s)).2 = (updateByte c dir x s).2 := by
    simp only [updateByte_out, beginByte_takePacket, takePacket_ksb, takePacket_dataLen]
  have hstate : (updateByte c dir x (takePacket rest s)).1 = takePacket rest (updateByte c dir x s).1 := by
    rw [updateByte_state, hout, beginByte_takePacket, absorbByte_takePacket, updateByte_state]
    rfl
  exact Prod.ext hstate hout

theorem updateLoop_takePacket (c : Cipher) (dir : Dir) (chunk : Bytes) (rest : Bytes) (s : State) :
    updateLoop c dir chunk (takePacket rest s) =
      (takePacket rest (updateLoop c dir chunk s).1, (updateLoop c dir chunk s).2) := by
  induction chunk generalizing s with
  | nil => rfl
  | cons x xs ih => simp only [updateLoop_cons, updateByte_takePacket, ih]

theorem finalHash_y_takePacket (rest : Bytes) (s : State) : (finalHash (takePacket rest s)).y = (finalHash s).y := by
  have hflush (p : Nat) : (flush p (takePacket rest s)).y = (flush p s).y := by
    rw [flush, flush]
    split <;> rfl
  rw [finalHash_y, finalHash_y, takePacket_dataLen, takePacket_aadLen, takePacket_h, hflush]

theorem finishEffect_takePacket (c : Cipher) (taglen : BitVec 8) (rest : Bytes) (s : State) :
    finishEffect c taglen (takePacket rest s) = (takePacket rest (finishEffect c taglen s).1, (finishEffect c taglen s).2) := by
  refine Prod.ext ?_ ?_
  · rw [finishEffect_state, finishEffect_state]
    rfl
  · rw [finishEffect_tag, finishEffect_tag, finalHash_y_takePacket, takePacket_ks, takePacket_j0]

theorem finishCheck_takePacket (taglen : BitVec 8) (given : Option Nat) (rest : Bytes) (s : State) :
    finishCheck taglen given (takePacket rest s) = finishCheck taglen given s := rfl

theorem initCommand_takePacket (c : Cipher) (key rest : Bytes) (s : State) :
    initCommand c key (takePacket rest s) = takePacket rest (initCommand c key s) := by
  rw [initCommand, initCommand, takePacket_st]
  split
  · cases keySetup c key <;> rfl
  · rfl

theorem startCommand_takePacket (iv aad rest : Bytes) (s : State) :
    startCommand iv aad (takePacket rest s) = takePacket rest (startCommand iv aad s) := by
  rw [startCommand, startCommand, takePacket_st]
  split
  · split <;> rfl
  · rfl

theorem updateCommand_takePacket (c : Cipher) (dir : Dir) (chunk rest : Bytes) (s : State) :
    updateCommand c dir chunk (takePacket rest s) = takePacket rest (updateCommand c dir chunk s) := by
  simp only [updateCommand, takePacket_st, takePacket_dataLen, updateLoop_takePacket]
  split
  · split <;> rfl
  · rfl

theorem finishECommand_takePacket (c : Cipher) (taglen : BitVec 8) (rest : Bytes) (s : State) :
    finishECommand c taglen (takePacket rest s) = takePacket rest (finishECommand c taglen s) := by
  simp only [finishECommand, finishCheck_takePacket, finishEffect_takePacket]
  cases finishCheck taglen none s with
  | some e => exact raise_takePacket e rest s
  | none => rfl

theorem finishDCommand_takePacket (c : Cipher) (taglen : BitVec 8) (tag rest : Bytes) (s : State) :
    finishDCommand c taglen tag (takePacket rest s) = takePacket rest (finishDCommand c taglen tag s) := by
  simp only [finishDCommand, finishCheck_takePacket, finishEffect_takePacket]
  cases finishCheck taglen (some tag.length) s with
  | some e => exact raise_takePacket e rest s
  | none => dsimp only; split <;> rfl

theorem commandFor_takePacket (c : Cipher) (i : Instr) (rest : Bytes) (s : State) :
    commandFor c i (takePacket rest s) = takePacket rest (commandFor c i s) := by
  cases i with
  | init key => exact initCommand_takePacket c key rest s
  | start iv aad => exact startCommand_takePacket iv aad rest s
  | updateE chunk => exact updateCommand_takePacket c .enc chunk rest s
  | updateD chunk => exact updateCommand_takePacket c .dec chunk rest s
  | finishE taglen => exact finishECommand_takePacket c taglen rest s
  | finishD taglen tag => exact finishDCommand_takePacket c taglen tag rest s

/-- A command leaves the command stream alone: it would leave it alone if it were put there afterwards. -/
@[simp] theorem commandFor_cmd (c : Cipher) (i : Instr) (s : State) : (commandFor c i s).cmd = s.cmd := by
  have hback := congrArg State.cmd (commandFor_takePacket c i s.cmd s)
  exact hback

theorem runCommands_cons (i : Instr) (is : List Instr) (s : State) :
    runCommands (i :: is) s = runCommands is (commandFor Config.cipher i s) := by
  rw [runCommands, exec_eq_commandFor]

theorem packetsOf_cons_append (i : Instr) (is : List Instr) (rest : Bytes) :
    packetsOf (i :: is) ++ rest = encode i ++ (packetsOf is ++ rest) := by
  simp [packetsOf]

theorem runStream_succ_of_step {s t : State} (fuel : Nat) (h : step s = .next t) : runStream (fuel + 1) s = runStream fuel t := by
  rw [runStream, h]

/-- R61, R70: as many steps as there are packets execute their commands in order and leave what stands behind the packets. -/
theorem runCommands_eq_runStream {cmds : List Instr} (s : State) (hwf : ∀ i ∈ cmds, i.wf = true) :
    runCommands cmds s = .next (runStream cmds.length (takePacket (packetsOf cmds ++ s.cmd) s)) := by
  induction cmds generalizing s with
  | nil => rfl
  | cons i is ih =>
    obtain ⟨hi, his⟩ := List.forall_mem_cons.mp hwf
    have hstep : step (takePacket (packetsOf (i :: is) ++ s.cmd) s) =
        .next (takePacket (packetsOf is ++ s.cmd) (commandFor Config.cipher i s)) := by
      rw [step_of_encode_append hi (packetsOf_cons_append i is s.cmd), ← commandFor_takePacket]
      exact exec_eq_commandFor i _
    rw [runCommands_cons, ih _ his, commandFor_cmd, List.length_cons, runStream_succ_of_step _ hstep]

end Sys2Proof.Machine

namespace Sys2Proof.Proofs

open Sys2Proof.Machine

/-- Settles O10: `runCommands_eq_runStream`, where `takePacket` is the change of command stream that the statement writes out. -/
theorem streamRunsCommandsInOrder : Obligations.StreamRunsCommandsInOrder :=
  fun _ s hwf => runCommands_eq_runStream s hwf

end Sys2Proof.Proofs
end

section
/-!
Everything a command can answer, said once for the six of them (R190 to R199, R236), and what follows for `CODE`, `ST`, the
response and the key.
-/
namespace Sys2Proof.Machine

/-- The success of a command: its checks pass, and it leaves the state `u` and the output `out` to be answered with
(R190 to R199). -/
inductive Accepted (c : Cipher) (s : State) : Instr → Bytes → State → Prop where
  | init (key : Bytes) (k : KeySchedule) (hst : s.st = .uninitialized ∨ s.st = .ready) (hkey : keySetup c key = some k) :
      Accepted c s (.init key) [] { clearMessage s with ks := some k, h := encrypt c (some k) 0, st := .ready }
  | start (iv aad : Bytes) (hst : s.st = .ready ∨ s.st = .finished) (hiv : iv ≠ []) :
      Accepted c s (.start iv aad) [] (startEffect iv aad s)
  | updateE (chunk : Bytes) (hst : s.st = .active) (hfits : dataFits s.dataLen chunk = true) :
      Accepted c s (.updateE chunk) (updateLoop c .enc chunk s).2 (updateLoop c .enc chunk s).1
  | updateD (chunk : Bytes) (hst : s.st = .active) (hfits : dataFits s.dataLen chunk = true) :
      Accepted c s (.updateD chunk) (updateLoop c .dec chunk s).2 (updateLoop c .dec chunk s).1
  | finishE (taglen : BitVec 8) (hst : s.st = .active) (hok : taglenOk taglen.toNat = true) :
      Accepted c s (.finishE taglen) (finishEffect c taglen s).2 (finishEffect c taglen s).1
  | finishD (taglen : BitVec 8) (tag : Bytes) (hst : s.st = .active) (hok : taglenOk taglen.toNat = true)
      (htag : (finishEffect c taglen s).2 = tag) : Accepted c s (.finishD taglen tag) [] (finishEffect c taglen s).1

/-- The errors that have no effect of their own: they change `CODE` and nothing else (R236). -/
def Status.Harmless (e : Status) : Prop := e ≠ .ok ∧ e ≠ .invalidKeyLength ∧ e ≠ .authenticationFailed

/-- The four ends of a command: a rejection without effect, the two errors with one, a success. -/
inductive Ended (c : Cipher) (s : State) : Instr → State → Prop where
  | rejected (i : Instr) (e : Status) (he : e.Harmless) : Ended c s i (raise e s)
  | badKey (key : Bytes) (hst : s.st = .uninitialized ∨ s.st = .ready) (hkey : keySetup c key = none) :
      Ended c s (.init key) (raise .invalidKeyLength s)
  | badTag (taglen : BitVec 8) (tag : Bytes) (hst : s.st = .active) (hok : taglenOk taglen.toNat = true)
      (hlen : tag.length = taglen.toNat / 8) (htag : (finishEffect c taglen s).2 ≠ tag) :
      Ended c s (.finishD taglen tag) (respond .authenticationFailed [] (finishEffect c taglen s).1)
  | accepted {i : Instr} {out : Bytes} {u : State} (h : Accepted c s i out u) : Ended c s i (succeed out u)

theorem initCommand_ended (c : Cipher) (key : Bytes) (s : State) : Ended c s (.init key) (initCommand c key s) := by
  rcases initCommand_cases c key s with ⟨-, h⟩ | ⟨hst, hkey, h⟩ | ⟨k, hst, hkey, h⟩ <;> rw [h]
  · exact .rejected _ _ (by simp [Status.Harmless])
  · exact .badKey key ((initAccepts_iff _).mp hst) hkey
  · exact .accepted (.init key k ((initAccepts_iff _).mp hst) hkey)

theorem startCommand_ended (c : Cipher) (iv aad : Bytes) (s : State) : Ended c s (.start iv aad) (startCommand iv aad s) := by
  rcases startCommand_cases iv aad s with ⟨-, h⟩ | ⟨-, -, h⟩ | ⟨hst, hiv, h⟩ <;> rw [h]
  · exact .rejected _ _ (by simp [Status.Harmless])
  · exact .rejected _ _ (by simp [Status.Harmless])
  · exact .accepted (.start iv aad ((startAccepts_iff _).mp hst) hiv)

/-- Both directions at once: `i` is the UPDATE whose success is the one given. -/
theorem updateCommand_ended {c : Cipher} {dir : Dir} {chunk : Bytes} {s : State} {i : Instr}
    (hi : s.st = .active → dataFits s.dataLen chunk = true →
      Accepted c s i (updateLoop c dir chunk s).2 (updateLoop c dir chunk s).1) :
    Ended c s i (updateCommand c dir chunk s) := by
  rcases updateCommand_cases c dir chunk s with ⟨-, h⟩ | ⟨-, -, h⟩ | ⟨hst, hfits, h⟩ <;> rw [h]
  · exact .rejected _ _ (by simp [Status.Harmless])
  · exact .rejected _ _ (by simp [Status.Harmless])
  · exact .accepted (hi ((updateAccepts_iff _).mp hst) hfits)

theorem finishECommand_ended (c : Cipher) (taglen : BitVec 8) (s : State) :
    Ended c s (.finishE taglen) (finishECommand c taglen s) := by
  rcases finishECommand_cases c taglen s with ⟨-, h⟩ | ⟨-, -, h⟩ | ⟨hst, hok, h⟩ <;> rw [h]
  · exact .rejected _ _ (by simp [Status.Harmless])
  · exact .rejected _ _ (by simp [Status.Harmless])
  · exact .accepted (.finishE taglen ((finishAccepts_iff _).mp hst) hok)

theorem finishDCommand_ended (c : Cipher) (taglen : BitVec 8) (tag : Bytes) (s : State) :
    Ended c s (.finishD taglen tag) (finishDCommand c taglen tag s) := by
  rcases finishDCommand_cases c taglen tag s with ⟨-, h⟩ | ⟨-, -, h⟩ | ⟨hst, hok, hlen, -⟩
  · exact h ▸ .rejected _ _ (by simp [Status.Harmless])
  · exact h ▸ .rejected _ _ (by simp [Status.Harmless])
  · have hactive := (finishAccepts_iff _).mp hst
    rw [finishDCommand_eq_respond c hactive hok hlen]
    split
    · next htag => exact .accepted (.finishD taglen tag hactive hok htag)
    · next htag => exact .badTag taglen tag hactive hok hlen htag

theorem commandFor_ended (c : Cipher) (i : Instr) (s : State) : Ended c s i (commandFor c i s) := by
  cases i with
  | init key => exact initCommand_ended c key s
  | start iv aad => exact startCommand_ended c iv aad s
  | updateE chunk => exact updateCommand_ended (.updateE chunk)
  | updateD chunk => exact updateCommand_ended (.updateD chunk)
  | finishE taglen => exact finishECommand_ended c taglen s
  | finishD taglen tag => exact finishDCommand_ended c taglen tag s

theorem exec_eq_next_iff {i : Instr} {s t : State} : exec i s = .next t ↔ commandFor Config.cipher i s = t := by
  rw [exec_eq_commandFor, Host.Outcome.next.injEq]

theorem exec_ended {i : Instr} {s t : State} (h : exec i s = .next t) : Ended Config.cipher s i t :=
  exec_eq_next_iff.mp h ▸ commandFor_ended _ i s

theorem raise_harmless_eq {e : Status} (he : e.Harmless) (s : State) :
    raise e s = { s with code := e.number, rsp := s.rsp ++ responsePacket e.number s.st [] } := by
  obtain ⟨-, hkey, htag⟩ := he
  exact raise_eq e s hkey htag

theorem Status.number_toNat_le (e : Status) : e.number.toNat ≤ 7 := by
  cases e <;> decide

/-- What a command leaves to be answered with has an untouched response stream. -/
theorem Accepted.rsp_eq {c : Cipher} {s u : State} {i : Instr} {out : Bytes} (h : Accepted c s i out u) : u.rsp = s.rsp := by
  cases h with
  | init key k => rfl
  | start iv aad => rfl
  | updateE chunk => exact updateLoop_rsp ..
  | updateD chunk => exact updateLoop_rsp ..
  | finishE taglen => exact finishEffect_rsp ..
  | finishD taglen tag => exact finishEffect_rsp ..

/-- Every command ends by answering: `CODE` is a status, and the one response packet carries it and the new `ST` (R191 (7)). -/
theorem Ended.exists_respond {c : Cipher} {s t : State} {i : Instr} (h : Ended c s i t) :
    ∃ (e : Status) (out : Bytes) (u : State), t = respond e out u ∧ u.rsp = s.rsp ∧ (e ≠ .ok → out = []) := by
  cases h with
  | rejected _ e => exact ⟨e, [], errorEffect e s, rfl, errorEffect_rsp e s, fun _ => rfl⟩
  | badKey key => exact ⟨.invalidKeyLength, [], resetRegisters s, rfl, rfl, fun _ => rfl⟩
  | badTag taglen tag => exact ⟨.authenticationFailed, [], _, rfl, finishEffect_rsp .., fun _ => rfl⟩
  | accepted hacc => exact ⟨.ok, _, _, rfl, hacc.rsp_eq, fun hne => absurd rfl hne⟩

/-- A step answers as its command does; a packet that is no command is answered with IllegalCommand (R238). -/
theorem step_exists_respond {s t : State} (h : step s = .next t) :
    ∃ (e : Status) (out : Bytes) (u : State), t = respond e out u ∧ u.rsp = s.rsp ∧ (e ≠ .ok → out = []) := by
  rcases step_cases h with ⟨why, rest, -, rfl⟩ | ⟨i, rest, -, rfl⟩
  · exact ⟨.illegalCommand, [], takePacket rest s, rfl, rfl, fun _ => rfl⟩
  · exact (commandFor_ended _ i (takePacket rest s)).exists_respond

/-- Only INIT binds a key (R33). -/
theorem Accepted.key_eq {c : Cipher} {s u : State} {i : Instr} {out : Bytes} (h : Accepted c s i out u)
    (hi : ∀ key, i ≠ .init key) : u.ks = s.ks ∧ u.h = s.h := by
  cases h with
  | init key => exact absurd rfl (hi key)
  | start iv aad => exact ⟨rfl, rfl⟩
  | updateE chunk => exact ⟨updateLoop_ks .., updateLoop_h ..⟩
  | updateD chunk => exact ⟨updateLoop_ks .., updateLoop_h ..⟩
  | finishE taglen => exact ⟨finishEffect_ks .., finishEffect_h ..⟩
  | finishD taglen tag => exact ⟨finishEffect_ks .., finishEffect_h ..⟩

end Sys2Proof.Machine

namespace Sys2Proof.Proofs

open Sys2Proof.Machine

/-- Settles O11: whatever the packet was, the step ends in `respond`, whose code is a status. -/
theorem everyStepEmitsOneResponse : Obligations.EveryStepEmitsOneResponse := by
  intro s t h
  obtain ⟨e, out, u, rfl, hrsp, hout⟩ := step_exists_respond h
  refine ⟨e.number_toNat_le, out, by rw [respond_rsp, hrsp, respond_code, respond_st], fun hcode => hout ?_⟩
  rwa [respond_code, ne_eq, Status.number_eq_zero_iff] at hcode

/-- Settles O13: the two errors with an effect, and success, are the codes left out. -/
theorem rejectedCommandChangesOnlyCode : Obligations.RejectedCommandChangesOnlyCode := by
  intro i s t h h0 h1 h5
  cases exec_ended h with
  | rejected _ e he => rw [raise_harmless_eq he]
  | badKey key => exact absurd rfl h1
  | badTag taglen tag => exact absurd rfl h5
  | accepted hacc => exact absurd (succeed_code ..) h0

/-- Settles O15: a code of 0 is a success, and each success names its states. -/
theorem successFollowsTheTransitionTable : Obligations.SuccessFollowsTheTransitionTable := by
  intro i s t h h0
  cases exec_ended h with
  | rejected _ e he => exact absurd ((Status.number_eq_zero_iff e).mp h0) he.1
  | badKey key => exact absurd ((Status.number_eq_zero_iff .invalidKeyLength).mp h0) (by decide)
  | badTag taglen tag => exact absurd ((Status.number_eq_zero_iff .authenticationFailed).mp h0) (by decide)
  | accepted hacc =>
    cases hacc with
    | init key k hst => exact ⟨hst, rfl⟩
    | start iv aad hst => exact ⟨hst, rfl⟩
    | updateE chunk hst => exact ⟨hst, (updateLoop_st ..).trans hst⟩
    | updateD chunk hst => exact ⟨hst, (updateLoop_st ..).trans hst⟩
    | finishE taglen hst => exact ⟨hst, finishEffect_st Config.cipher taglen s⟩
    | finishD taglen tag hst => exact ⟨hst, finishEffect_st Config.cipher taglen s⟩

/-- Settles O16: of the ends of a command only those of an INIT in its own states touch `KS` or `H`. -/
theorem onlyAnAcceptedInitChangesTheKey : Obligations.OnlyAnAcceptedInitChangesTheKey := by
  intro i s t h hinit
  have hno_init : ∀ key, s.st = .uninitialized ∨ s.st = .ready → i ≠ .init key := by
    rintro key hst hi
    rcases hst with hst | hst <;> rcases hinit key hi with hout | hout <;> simp [hst] at hout
  cases exec_ended h with
  | rejected _ e he =>
    rw [raise_harmless_eq he]
    exact ⟨rfl, rfl⟩
  | badKey key hst => exact absurd rfl (hno_init key hst)
  | badTag taglen tag => exact ⟨finishEffect_ks Config.cipher taglen s, finishEffect_h Config.cipher taglen s⟩
  | accepted hacc =>
    refine hacc.key_eq fun key hi => ?_
    subst hi
    cases hacc with
    | init _ k hst => exact hno_init key hst rfl

end Sys2Proof.Proofs
end

section
/-!
The accepted INIT, START, FINISH.E and empty UPDATE as whole-state equations (R192, R193, R198, R201).
-/
namespace Sys2Proof.Machine

theorem initCommand_eq_succeed {c : Cipher} {key : Bytes} {s : State} (hst : initAccepts s.st = true)
    (hkey : key.length ∈ c.keySizes) :
    initCommand c key s = succeed [] { clearMessage s with
      ks := some (c.expandKey key), h := encrypt c (some (c.expandKey key)) 0, st := .ready } := by
  have hsetup : keySetup c key = some (c.expandKey key) := if_pos hkey
  simpa [hst, hsetup] using initCommand_cases c key s

theorem finishECommand_eq_succeed (c : Cipher) {taglen : BitVec 8} {s : State} (hst : s.st = .active)
    (hok : taglenOk taglen.toNat = true) :
    finishECommand c taglen s = succeed (finishEffect c taglen s).2 (finishEffect c taglen s).1 := by
  simpa [(finishAccepts_iff s.st).mpr hst, hok] using finishECommand_cases c taglen s

theorem updateCommand_nil (c : Cipher) (dir : Dir) {s : State} (hst : s.st = .active) (hbound : s.dataLen.toNat ≤ 2 ^ 36 - 32) :
    updateCommand c dir [] s = succeed [] s :=
  updateCommand_eq_succeed c dir hst hbound

/-- START reads of the old state the key, its subkey and what the answer goes behind (R206). -/
theorem startEffect_sameRegisters (iv aad : Bytes) {s s' : State} (hks : s.ks = s'.ks) (hh : s.h = s'.h) :
    SameRegisters (succeed [] (startEffect iv aad s)) (succeed [] (startEffect iv aad s')) := by
  simp [SameRegisters, succeed, respond, startEffect, clearHash, loadCounter, hks, hh]

end Sys2Proof.Machine

namespace Sys2Proof.Proofs

open Sys2Proof.Machine

/-- Settles O20: an accepted INIT, its registers written out. -/
theorem initBindsKeyAndSubkey : Obligations.InitBindsKeyAndSubkey := by
  intro key s hst hkey
  have haccepted := initCommand_eq_succeed (c := Config.cipher) ((initAccepts_iff s.st).mpr hst) hkey
  rw [exec_eq_commandFor, commandFor, haccepted]
  rfl

/-- Settles O22: an accepted START, its registers written out. -/
theorem startDerivesJ0AndFoldsTheAad : Obligations.StartDerivesJ0AndFoldsTheAad := by
  intro iv aad s hst hiv
  rw [exec_eq_commandFor, commandFor, startCommand_eq_succeed aad ((startAccepts_iff s.st).mpr hst) hiv]
  rfl

/-- Settles O30: over the empty chunk the loop of R194 makes no turn. -/
theorem emptyUpdateChangesNothing : Obligations.EmptyUpdateChangesNothing := by
  intro s hst hbound
  have hnil (dir : Dir) :
      updateCommand Config.cipher dir [] s = { s with code := 0, rsp := s.rsp ++ responsePacket 0 .active [] } := by
    rw [updateCommand_nil _ dir hst hbound, ← hst]
    rfl
  exact ⟨congrArg _ (hnil .enc), congrArg _ (hnil .dec)⟩

/-- Settles O32: an accepted FINISH.E with the closed state and the computed tag written out. -/
theorem finishEOutputsTheTag : Obligations.FinishEOutputsTheTag := by
  intro taglen s k hst hks hmod hmin hmax
  have hok : taglenOk taglen.toNat = true := (taglenOk_iff taglen.toNat).mpr ⟨hmod, hmin, hmax⟩
  rw [exec_eq_commandFor, commandFor, finishECommand_eq_succeed _ hst hok, finishEffect_tag_of_ks taglen hks, finishEffect_state]
  rfl

/-- Settles O57: both STARTs are accepted, and what they leave depends on `KS` and `H` alone. -/
theorem startForgetsTheEarlierMessage : Obligations.StartForgetsTheEarlierMessage := by
  intro iv aad s s' hks hh hst hst' hiv
  refine ⟨_, _, exec_eq_commandFor .., exec_eq_commandFor .., ?_⟩
  rw [commandFor, commandFor, startCommand_eq_succeed aad ((startAccepts_iff s.st).mpr hst) hiv,
    startCommand_eq_succeed aad ((startAccepts_iff s'.st).mpr hst') hiv]
  exact startEffect_sameRegisters iv aad hks hh

end Sys2Proof.Proofs
end

section
/-!
The registers of a message in progress under the loop of UPDATE (R47 (c), R154, R155, R194): the counter keeps step with the
data, the output is the xor with the keystream, and the partial block stays padded with zeros.
-/
namespace Sys2Proof.Machine

/-- `CB` and `KSB` are where the byte counter says (R35, R36, R47 (c)). -/
def CounterInStep (c : Cipher) (s : State) : Prop :=
  s.cb = inc32^[blocksBegun s.dataLen.toNat] s.j0 ∧
  s.ksb = if blocksBegun s.dataLen.toNat = 0 then 0 else encrypt c s.ks s.cb

/-- `BUF` is zero from the next free position on (R38, R47 (c)). -/
def BufferPadded (s : State) : Prop :=
  (∀ q, s.dataLen.toNat % 16 ≤ q → q < 16 → getByte s.buf q = 0) ∧ (s.dataLen.toNat % 16 = 0 → s.buf = 0)

theorem messageActive_iff (c : Cipher) (s : State) :
    MessageActive c s ↔
      s.aadLen.toNat < 2 ^ 61 ∧ s.dataLen.toNat ≤ maxDataBytes ∧ CounterInStep c s ∧ BufferPadded s := by
  simp only [MessageActive, CounterInStep, BufferPadded, and_assoc]

theorem dataLen_succ_toNat {s : State} (h : s.dataLen.toNat + 1 < 2 ^ 64) : (s.dataLen + 1).toNat = s.dataLen.toNat + 1 := by
  rw [BitVec.toNat_add]
  exact Nat.mod_eq_of_lt h

/-- The byte at offset `n` stands in data block `n / 16 + 1` (R156). -/
theorem blocksBegun_succ (n : Nat) : blocksBegun (n + 1) = n / 16 + 1 := by
  rw [blocksBegun]
  omega

/-- A block is begun at its first byte and only there (R154). -/
theorem blocksBegun_of_mod_eq_zero {n : Nat} (h : n % 16 = 0) : blocksBegun n = n / 16 := by
  rw [blocksBegun]
  omega

theorem blocksBegun_of_mod_ne_zero {n : Nat} (h : n % 16 ≠ 0) : blocksBegun n = n / 16 + 1 := by
  rw [blocksBegun]
  omega

/-- For the byte about to be processed the counter stands at its data block, and `KSB` is that block's keystream (R154, R156). -/
theorem beginByte_counter {c : Cipher} {s : State} (h : CounterInStep c s) :
    (beginByte c s).cb = inc32^[s.dataLen.toNat / 16 + 1] s.j0 ∧
    (beginByte c s).ksb = encrypt c s.ks (beginByte c s).cb := by
  obtain ⟨hcb, hksb⟩ := h
  rw [beginByte]
  split
  · next hfirst =>
    rw [blocksBegun_of_mod_eq_zero hfirst] at hcb
    rw [nextKeystream_cb, nextKeystream_ksb, hcb, ← Function.iterate_succ_apply' inc32]
    exact ⟨rfl, rfl⟩
  · next hlater =>
    rw [blocksBegun_of_mod_ne_zero hlater] at hcb hksb
    exact ⟨hcb, hksb.trans (if_neg (Nat.succ_ne_zero _))⟩

theorem updateByte_out_eq_keystream {c : Cipher} {s : State} (dir : Dir) (b : Byte) (h : CounterInStep c s) :
    (updateByte c dir b s).2 = b ^^^ keystreamByte c s.ks s.j0 s.dataLen.toNat := by
  obtain ⟨hcb, hksb⟩ := beginByte_counter h
  rw [updateByte_out, hksb, hcb, keystreamByte]

theorem updateByte_counterInStep {c : Cipher} {s : State} (dir : Dir) (b : Byte) (h : CounterInStep c s)
    (hbound : s.dataLen.toNat + 1 < 2 ^ 64) : CounterInStep c (updateByte c dir b s).1 := by
  obtain ⟨hcb, hksb⟩ := beginByte_counter h
  rw [CounterInStep, updateByte_dataLen, dataLen_succ_toNat hbound, blocksBegun_succ, if_neg (Nat.succ_ne_zero _), updateByte_cb,
    updateByte_ksb, updateByte_j0, updateByte_ks]
  exact ⟨hcb, hksb⟩

theorem updateByte_bufferPadded {s : State} (c : Cipher) (dir : Dir) (b : Byte) (h : BufferPadded s)
    (hbound : s.dataLen.toNat + 1 < 2 ^ 64) : BufferPadded (updateByte c dir b s).1 := by
  obtain ⟨hzero, -⟩ := h
  rw [BufferPadded, updateByte_dataLen, dataLen_succ_toNat hbound, updateByte_state]
  rcases absorbByte_cases (cipherByte dir b (updateByte c dir b s).2) (s.dataLen.toNat % 16) (beginByte c s) with
    ⟨-, habsorb⟩ | ⟨hearly, habsorb⟩
  · rw [habsorb]
    exact ⟨fun q _ _ => getByte_zero q, fun _ => rfl⟩
  · rw [habsorb]
    refine ⟨fun q hq hq16 => ?_, fun hfull => absurd hfull (by omega)⟩
    have hnot : q ≠ s.dataLen.toNat % 16 := by omega
    dsimp only
    rw [getByte_setByte _ _ _ _ (by omega) hq16, if_neg hnot, beginByte_buf]
    exact hzero q (by omega) hq16

/-- The byte counter over a chunk that does not make it wrap (R40). -/
theorem updateLoop_dataLen_toNat (c : Cipher) (dir : Dir) {chunk : Bytes} {s : State}
    (hbound : s.dataLen.toNat + chunk.length < 2 ^ 64) :
    (updateLoop c dir chunk s).1.dataLen.toNat = s.dataLen.toNat + chunk.length := by
  rw [updateLoop_dataLen, BitVec.toNat_add, BitVec.toNat_ofNat]
  omega

/-- A predicate that every byte keeps is kept by the loop, as long as the byte counter does not wrap. -/
theorem updateLoop_induction {c : Cipher} {dir : Dir} {P : State → Prop}
    (hbyte : ∀ b s, P s → s.dataLen.toNat + 1 < 2 ^ 64 → P (updateByte c dir b s).1) {chunk : Bytes} {s : State} (hs : P s)
    (hbound : s.dataLen.toNat + chunk.length < 2 ^ 64) : P (updateLoop c dir chunk s).1 := by
  induction chunk generalizing s with
  | nil => exact hs
  | cons b bs ih =>
    rw [List.length_cons] at hbound
    have hnext : s.dataLen.toNat + 1 < 2 ^ 64 := by omega
    refine ih (hbyte b s hs hnext) ?_
    rw [updateByte_dataLen, dataLen_succ_toNat hnext]
    omega

theorem updateLoop_counterInStep {c : Cipher} {s : State} (dir : Dir) {chunk : Bytes} (h : CounterInStep c s)
    (hbound : s.dataLen.toNat + chunk.length < 2 ^ 64) : CounterInStep c (updateLoop c dir chunk s).1 :=
  updateLoop_induction (fun b _ => updateByte_counterInStep dir b) h hbound

theorem updateLoop_bufferPadded {s : State} (c : Cipher) (dir : Dir) {chunk : Bytes} (h : BufferPadded s)
    (hbound : s.dataLen.toNat + chunk.length < 2 ^ 64) : BufferPadded (updateLoop c dir chunk s).1 :=
  updateLoop_induction (fun b _ => updateByte_bufferPadded c dir b) h hbound

/-- The output of the loop is the chunk xored with the keystream at its message offsets (R155, R156). -/
theorem updateLoop_out {c : Cipher} {s : State} (dir : Dir) {chunk : Bytes} (h : CounterInStep c s)
    (hbound : s.dataLen.toNat + chunk.length < 2 ^ 64) :
    (updateLoop c dir chunk s).2 = ctrFrom c s.ks s.j0 s.dataLen.toNat chunk := by
  induction chunk generalizing s with
  | nil => rfl
  | cons b bs ih =>
    rw [List.length_cons] at hbound
    have hnext : s.dataLen.toNat + 1 < 2 ^ 64 := by omega
    have hlen : (updateByte c dir b s).1.dataLen.toNat = s.dataLen.toNat + 1 := by
      rw [updateByte_dataLen, dataLen_succ_toNat hnext]
    rw [updateLoop_cons, ih (updateByte_counterInStep dir b h hnext) (by omega), updateByte_out_eq_keystream dir b h, hlen,
      updateByte_ks, updateByte_j0, ctrFrom]

theorem updateLoop_messageActive {c : Cipher} {s : State} (dir : Dir) {chunk : Bytes} (h : MessageActive c s)
    (hbound : s.dataLen.toNat + chunk.length ≤ maxDataBytes) : MessageActive c (updateLoop c dir chunk s).1 := by
  obtain ⟨haad, -, hcounter, hbuf⟩ := (messageActive_iff c s).mp h
  have hwrap : s.dataLen.toNat + chunk.length < 2 ^ 64 := by simp only [maxDataBytes, maxDataBlocks] at hbound; omega
  refine (messageActive_iff c _).mpr
    ⟨?_, ?_, updateLoop_counterInStep dir hcounter hwrap, updateLoop_bufferPadded c dir hbuf hwrap⟩
  · rwa [updateLoop_aadLen]
  · rwa [updateLoop_dataLen_toNat c dir hwrap]

end Sys2Proof.Machine
end

section
/-!
The invariant between commands (R47): it holds at reset and every step keeps it.
-/
namespace Sys2Proof.Machine

theorem engineInv_ready_iff {c : Cipher} {s : State} (hst : s.st = .ready) :
    EngineInv c s ↔ KeyBound c s ∧ MessageZero s := by
  simp only [EngineInv, hst]

theorem engineInv_finished_iff {c : Cipher} {s : State} (hst : s.st = .finished) :
    EngineInv c s ↔ KeyBound c s ∧ MessageZero s := by
  simp only [EngineInv, hst]

theorem engineInv_active_iff {c : Cipher} {s : State} (hst : s.st = .active) :
    EngineInv c s ↔ KeyBound c s ∧ MessageActive c s := by
  simp only [EngineInv, hst]

/-- Out of Uninitialized a key is bound (R47 (b), (c)). -/
theorem keyBound_of_engineInv {c : Cipher} {s : State} (h : EngineInv c s) (hst : s.st ≠ .uninitialized) : KeyBound c s := by
  cases hs : s.st with
  | uninitialized => exact absurd hs hst
  | ready => exact ((engineInv_ready_iff hs).mp h).1
  | active => exact ((engineInv_active_iff hs).mp h).1
  | finished => exact ((engineInv_finished_iff hs).mp h).1

/-- `CODE` and the response stream have no part in the invariant (R47). -/
theorem engineInv_respond_iff (c : Cipher) (e : Status) (out : Bytes) (s : State) :
    EngineInv c (respond e out s) ↔ EngineInv c s := Iff.rfl

theorem engineInv_takePacket_iff (c : Cipher) (rest : Bytes) (s : State) : EngineInv c (takePacket rest s) ↔ EngineInv c s :=
  Iff.rfl

theorem resetRegisters_engineInv (c : Cipher) (s : State) : EngineInv c (resetRegisters s) :=
  ⟨rfl, rfl, rfl, rfl, rfl, rfl, rfl, rfl, rfl⟩

/-- At the start of a message no block is begun and nothing is buffered (R193). -/
theorem startEffect_messageActive (c : Cipher) (iv : Bytes) {aad : Bytes} (s : State) (haad : aad.length < 2 ^ 61) :
    MessageActive c (startEffect iv aad s) := by
  have hbegun : blocksBegun (startEffect iv aad s).dataLen.toNat = 0 := by rw [startEffect_dataLen]; rfl
  refine (messageActive_iff c _).mpr ⟨?_, Nat.zero_le _, ⟨?_, ?_⟩, fun q _ _ => getByte_zero q, fun _ => rfl⟩
  · rw [startEffect_aadLen, BitVec.toNat_ofNat, Nat.mod_eq_of_lt (by omega)]
    exact haad
  · rw [hbegun, startEffect_cb, startEffect_j0, Function.iterate_zero_apply]
  · rw [if_pos hbegun, startEffect_ksb]

/-- Closing a message keeps the key and zeroes the rest (R48, R197). -/
theorem finishEffect_engineInv {c : Cipher} {s : State} (taglen : BitVec 8) (h : KeyBound c s) :
    EngineInv c (finishEffect c taglen s).1 := by
  rw [finishEffect_state]
  exact ⟨h, rfl, rfl, rfl, rfl, rfl, rfl, rfl⟩

theorem updateLoop_engineInv {c : Cipher} {s : State} (dir : Dir) {chunk : Bytes} (h : EngineInv c s) (hst : s.st = .active)
    (hfits : dataFits s.dataLen chunk = true) : EngineInv c (updateLoop c dir chunk s).1 := by
  obtain ⟨hkey, hmsg⟩ := (engineInv_active_iff hst).mp h
  refine (engineInv_active_iff (by rw [updateLoop_st, hst])).mpr
    ⟨?_, updateLoop_messageActive dir hmsg (of_decide_eq_true hfits)⟩
  rwa [KeyBound, updateLoop_ks, updateLoop_h]

theorem Accepted.engineInv {c : Cipher} {s u : State} {i : Instr} {out : Bytes} (h : Accepted c s i out u) (hwf : i.wf = true)
    (hinv : EngineInv c s) : EngineInv c u := by
  cases h with
  | init key k => exact ⟨⟨Option.some_ne_none k, rfl⟩, rfl, rfl, rfl, rfl, rfl, rfl, rfl⟩
  | start iv aad hst =>
    have hkey : KeyBound c s := keyBound_of_engineInv hinv (by rcases hst with hst | hst <;> simp [hst])
    exact ⟨hkey, startEffect_messageActive c iv s ((wf_iff_operand_lengths _).mp hwf).2⟩
  | updateE chunk hst hfits => exact updateLoop_engineInv .enc hinv hst hfits
  | updateD chunk hst hfits => exact updateLoop_engineInv .dec hinv hst hfits
  | finishE taglen hst => exact finishEffect_engineInv taglen ((engineInv_active_iff hst).mp hinv).1
  | finishD taglen tag hst => exact finishEffect_engineInv taglen ((engineInv_active_iff hst).mp hinv).1

theorem Ended.engineInv {c : Cipher} {s t : State} {i : Instr} (h : Ended c s i t) (hwf : i.wf = true)
    (hinv : EngineInv c s) : EngineInv c t := by
  cases h with
  | rejected _ e he =>
    rw [raise_harmless_eq he]
    exact hinv
  | badKey key => exact (engineInv_respond_iff ..).mpr (resetRegisters_engineInv c s)
  | badTag taglen tag hst =>
    exact (engineInv_respond_iff ..).mpr (finishEffect_engineInv taglen ((engineInv_active_iff hst).mp hinv).1)
  | accepted hacc => exact (engineInv_respond_iff ..).mpr (hacc.engineInv hwf hinv)

end Sys2Proof.Machine

namespace Sys2Proof.Proofs

open Sys2Proof.Machine

/-- Settles O18: R49's table is R47's case of Uninitialized. -/
theorem engineInvAtReset : Obligations.EngineInvAtReset :=
  resetRegisters_engineInv Config.cipher State.reset

/-- Settles O19: a packet that is no command changes nothing the invariant reads, and each end of a decoded command keeps it;
that the command is well-formed bounds `AAD_LEN`. -/
theorem everyStepKeepsEngineInv : Obligations.EveryStepKeepsEngineInv := by
  intro s t hinv h
  rcases step_cases h with ⟨why, rest, -, rfl⟩ | ⟨i, rest, hdec, rfl⟩
  · rw [illegalPacket_eq]
    exact hinv
  · obtain ⟨hwf, -⟩ := (decode_eq_command_iff ..).mp hdec
    exact (commandFor_ended Config.cipher i (takePacket rest s)).engineInv hwf ((engineInv_takePacket_iff ..).mpr hinv)

end Sys2Proof.Proofs
end

section
/-!
UPDATE in a message in progress: its answer and registers (R194 to R196), and the ciphertext it hashes (R137, R141).
-/
namespace Sys2Proof.Machine

/-- R194 for both directions. -/
theorem updateCommand_keystream {c : Cipher} {chunk : Bytes} {s : State} (dir : Dir) (hst : s.st = .active) (hinv : EngineInv c s)
    (hbound : s.dataLen.toNat + chunk.length ≤ 2 ^ 36 - 32) :
    ∃ t, updateCommand c dir chunk s = t ∧
      t.rsp = s.rsp ++ responsePacket 0 .active (ctrFrom c s.ks s.j0 s.dataLen.toNat chunk) ∧
      t.dataLen.toNat = s.dataLen.toNat + chunk.length ∧
      t.cb = inc32^[blocksBegun (s.dataLen.toNat + chunk.length)] s.j0 ∧
      (s.dataLen.toNat + chunk.length ≠ 0 → t.ksb = encrypt c s.ks t.cb) ∧
      t.st = .active ∧ t.code = 0 ∧ t.ks = s.ks ∧ t.h = s.h ∧ t.j0 = s.j0 ∧ t.aadLen = s.aadLen ∧ t.cmd = s.cmd := by
  obtain ⟨-, hmsg⟩ := (engineInv_active_iff hst).mp hinv
  obtain ⟨-, -, hcounter, -⟩ := (messageActive_iff c s).mp hmsg
  have hwrap : s.dataLen.toNat + chunk.length < 2 ^ 64 := by omega
  have hlen := updateLoop_dataLen_toNat c dir hwrap
  obtain ⟨hcb, hksb⟩ := updateLoop_counterInStep dir hcounter hwrap
  rw [hlen, updateLoop_j0] at hcb
  rw [hlen, updateLoop_ks] at hksb
  have hbegun (h : s.dataLen.toNat + chunk.length ≠ 0) : blocksBegun (s.dataLen.toNat + chunk.length) ≠ 0 := by
    rw [blocksBegun]
    omega
  refine ⟨_, rfl, ?_⟩
  rw [updateCommand_eq_succeed c dir hst hbound]
  refine ⟨?_, hlen, hcb, fun h => hksb.trans (if_neg (hbegun h)), (updateLoop_st ..).trans hst, rfl, updateLoop_ks ..,
    updateLoop_h .., updateLoop_j0 .., updateLoop_aadLen .., updateLoop_cmd ..⟩
  rw [succeed_rsp, updateLoop_rsp, updateLoop_st, hst, updateLoop_out dir hcounter hwrap]

/-- `Y` and `BUF` hold the bytes `ct` fed to an empty partial block from the accumulator `y0`: the whole blocks are folded, the rest
is buffered (R38, R137). -/
def HashedFrom (y0 : Block) (ct : Bytes) (s : State) : Prop :=
  s.y = absorb y0 (wholeBlocks ct) s.h ∧ s.buf = padBlock (partialBlock ct)

/-- `HashedFrom` in the terms of `hashSoFar`. -/
theorem hashedFrom_iff_eq_hashSoFar (y0 : Block) (ct : Bytes) (s : State) :
    HashedFrom y0 ct s ↔ s = hashSoFar ct { s with y := y0 } := by
  constructor
  · rintro ⟨hy, hbuf⟩
    rw [hashSoFar, ← hy, ← hbuf]
  · intro h
    exact ⟨congrArg State.y h, congrArg State.buf h⟩

theorem absorbByte_hashedFrom {y0 : Block} {ct : Bytes} {s : State} (x : Byte) (h : HashedFrom y0 ct s) :
    HashedFrom y0 (ct ++ [x]) (absorbByte x (ct.length % 16) s) := by
  rw [(hashedFrom_iff_eq_hashSoFar y0 ct s).mp h, absorbByte_hashSoFar]
  exact ⟨rfl, rfl⟩

/-- The bytes of a chunk that are authenticated (R141). -/
def cipherBytes (dir : Dir) (input output : Bytes) : Bytes :=
  match dir with
  | .enc => output
  | .dec => input

theorem cipherBytes_cons (dir : Dir) (b o : Byte) (input output : Bytes) :
    cipherBytes dir (b :: input) (o :: output) = cipherByte dir b o :: cipherBytes dir input output := by
  cases dir <;> rfl

theorem updateByte_hashedFrom {y0 : Block} {ct : Bytes} {s : State} (c : Cipher) (dir : Dir) (b : Byte)
    (hlen : s.dataLen = BitVec.ofNat 64 ct.length) (h : HashedFrom y0 ct s) :
    HashedFrom y0 (ct ++ [cipherByte dir b (updateByte c dir b s).2]) (updateByte c dir b s).1 := by
  have hpos : s.dataLen.toNat % 16 = ct.length % 16 := by
    rw [hlen, BitVec.toNat_ofNat]
    omega
  have hbegin : HashedFrom y0 ct (beginByte c s) := by
    rwa [HashedFrom, beginByte_y, beginByte_buf, beginByte_h]
  rw [updateByte_state, hpos]
  exact absorbByte_hashedFrom _ hbegin

/-- The loop hashes the ciphertext bytes of its chunk, in both directions (R141, R194). -/
theorem updateLoop_hashedFrom {y0 : Block} {ct chunk : Bytes} {s : State} (c : Cipher) (dir : Dir)
    (hlen : s.dataLen = BitVec.ofNat 64 ct.length) (h : HashedFrom y0 ct s) :
    HashedFrom y0 (ct ++ cipherBytes dir chunk (updateLoop c dir chunk s).2) (updateLoop c dir chunk s).1 := by
  induction chunk generalizing s ct with
  | nil => cases dir <;> simpa [cipherBytes] using h
  | cons b bs ih =>
    have hnext : (updateByte c dir b s).1.dataLen =
        BitVec.ofNat 64 (ct ++ [cipherByte dir b (updateByte c dir b s).2]).length := by
      rw [updateByte_dataLen, hlen, List.length_append, BitVec.ofNat_add]
      rfl
    have hrest := ih hnext (updateByte_hashedFrom c dir b hlen h)
    rwa [List.append_assoc, List.singleton_append, ← cipherBytes_cons] at hrest

theorem messageSoFar_iff (iv aad ct : Bytes) (s : State) :
    MessageSoFar iv aad ct s ↔ s.st = .active ∧ s.j0 = deriveJ0 s.h iv ∧ s.aadLen = BitVec.ofNat 64 aad.length ∧
      s.dataLen = BitVec.ofNat 64 ct.length ∧ HashedFrom (absorb 0 aad s.h) ct s := by
  rw [MessageSoFar, HashedFrom, wholeBlocks, padBlock, partialBlock_length, partialBlock]

theorem cipherBytes_length (dir : Dir) {input output : Bytes} (h : output.length = input.length) :
    (cipherBytes dir input output).length = input.length := by
  cases dir
  · exact h
  · rfl

/-- The answer has no part in a message so far. -/
theorem messageSoFar_respond_iff (iv aad ct : Bytes) (e : Status) (out : Bytes) (s : State) :
    MessageSoFar iv aad ct (respond e out s) ↔ MessageSoFar iv aad ct s := Iff.rfl

theorem updateLoop_messageSoFar {iv aad ct chunk : Bytes} {s : State} (c : Cipher) (dir : Dir) (h : MessageSoFar iv aad ct s) :
    MessageSoFar iv aad (ct ++ cipherBytes dir chunk (updateLoop c dir chunk s).2) (updateLoop c dir chunk s).1 := by
  obtain ⟨hst, hj0, haad, hlen, hhash⟩ := (messageSoFar_iff ..).mp h
  rw [messageSoFar_iff, updateLoop_st, updateLoop_j0, updateLoop_h, updateLoop_aadLen, updateLoop_dataLen, hlen,
    List.length_append, cipherBytes_length dir (updateLoop_out_length ..), BitVec.ofNat_add]
  exact ⟨hst, hj0, haad, rfl, updateLoop_hashedFrom c dir hlen hhash⟩

theorem counterInStep_of_messageSoFar {c : Cipher} {iv aad ct : Bytes} {s : State} (h : MessageSoFar iv aad ct s)
    (hinv : EngineInv c s) : CounterInStep c s := by
  obtain ⟨hst, -⟩ := (messageSoFar_iff ..).mp h
  obtain ⟨-, hmsg⟩ := (engineInv_active_iff hst).mp hinv
  obtain ⟨-, -, hcounter, -⟩ := (messageActive_iff c s).mp hmsg
  exact hcounter

/-- Within the data bound the byte counter is the message's length (R40). -/
theorem dataLen_toNat_of_messageSoFar {iv aad ct : Bytes} {s : State} (h : MessageSoFar iv aad ct s)
    (hbound : ct.length ≤ 2 ^ 36 - 32) : s.dataLen.toNat = ct.length := by
  obtain ⟨-, -, -, hlen, -⟩ := (messageSoFar_iff ..).mp h
  rw [hlen, BitVec.toNat_ofNat]
  omega

/-- UPDATE appends to the message so far the ciphertext of its chunk, which when encrypting is the chunk xored with the
keystream. -/
theorem updateCommand_messageSoFar {c : Cipher} {iv aad ct chunk : Bytes} {s : State} (dir : Dir) (h : MessageSoFar iv aad ct s)
    (hinv : EngineInv c s) (hbound : ct.length + chunk.length ≤ 2 ^ 36 - 32) :
    MessageSoFar iv aad (ct ++ cipherBytes dir chunk (ctrFrom c s.ks s.j0 ct.length chunk)) (updateCommand c dir chunk s) := by
  have hlen := dataLen_toNat_of_messageSoFar h (by omega)
  have hout := updateLoop_out dir (chunk := chunk) (counterInStep_of_messageSoFar h hinv) (by omega)
  rw [hlen] at hout
  rw [updateCommand_eq_succeed c dir h.1 (by omega), ← hout]
  exact (messageSoFar_respond_iff ..).mpr (updateLoop_messageSoFar c dir h)

end Sys2Proof.Machine

namespace Sys2Proof.Proofs

open Sys2Proof.Machine

/-- Settles O26: the direction `enc` of `updateCommand_keystream`. -/
theorem updateEncryptsWithTheKeystream : Obligations.UpdateEncryptsWithTheKeystream := by
  intro chunk s hst hinv hbound
  obtain ⟨t, rfl, ht⟩ := updateCommand_keystream .enc hst hinv hbound
  exact ⟨_, exec_eq_commandFor .., ht⟩

/-- Settles O27: the direction `dec` of `updateCommand_keystream`; the keystream does not depend on the direction. -/
theorem updateDecryptsWithTheKeystream : Obligations.UpdateDecryptsWithTheKeystream := by
  intro chunk s hst hinv hbound
  obtain ⟨t, rfl, ht⟩ := updateCommand_keystream .dec hst hinv hbound
  exact ⟨_, exec_eq_commandFor .., ht⟩

/-- Settles O28: the two directions of `updateCommand_messageSoFar`. -/
theorem updateHashesTheCiphertext : Obligations.UpdateHashesTheCiphertext := by
  intro iv aad ct chunk s t hinv hsofar hbound
  constructor
  · intro h
    exact exec_eq_next_iff.mp h ▸ updateCommand_messageSoFar .enc hsofar hinv hbound
  · intro h
    exact exec_eq_next_iff.mp h ▸ updateCommand_messageSoFar .dec hsofar hinv hbound

end Sys2Proof.Proofs
end

section
/-!
The laws of the product (R114): the ring laws, and that the reduction polynomial is irreducible, by Rabin's test.
-/
namespace Sys2Proof.Machine

open Polynomial

/-- A block is known by its class modulo the reduction polynomial. -/
theorem mk_poly_injective {a b : Block} (h : AdjoinRoot.mk gfPolynomial (poly a) = AdjoinRoot.mk gfPolynomial (poly b)) :
    a = b := by
  have hremainders := modByMonic_eq_of_mk_eq h
  rw [poly_modByMonic, poly_modByMonic] at hremainders
  exact poly_injective hremainders

theorem gfMul_assoc (a b c : Block) : gfMul (gfMul a b) c = gfMul a (gfMul b c) :=
  mk_poly_injective (by simp only [mk_poly_gfMul, map_mul, mul_assoc])

theorem xor_gfMul (a b c : Block) : gfMul (a ^^^ b) c = gfMul a c ^^^ gfMul b c :=
  mk_poly_injective (by simp only [mk_poly_gfMul, poly_xor, map_mul, map_add, add_mul])

/-! ### Rabin's test of the reduction polynomial `P`

`P` divides `X^(2^128) - X`, so the degree of an irreducible factor divides 128; and `X^(2^64) - X` is invertible modulo `P`, so
that degree does not divide 64. The two powers of `X` are computed with the multiplier itself, by squaring. -/

def gfSquare (v : Block) : Block := gfMul v v

/-- The block of `x` (R118). -/
def gfX : Block := 0x40000000000000000000000000000000

theorem poly_gfX : poly gfX = X := poly_blockX

theorem mk_poly_iterate_gfSquare (n : Nat) (v : Block) :
    AdjoinRoot.mk gfPolynomial (poly (gfSquare^[n] v)) = AdjoinRoot.mk gfPolynomial (poly v ^ 2 ^ n) := by
  induction n with
  | zero => rw [Function.iterate_zero_apply, pow_zero, pow_one]
  | succ n ih =>
    rw [Function.iterate_succ_apply', gfSquare, mk_poly_gfMul, map_mul, ih, ← map_mul, ← pow_two, ← pow_mul, pow_succ]

/-- `x^(2^64)`. -/
def gfXPow64 : Block := 0x6f9945a9e519a7229d4c1ad657f8a686

/-- The inverse of `x^(2^64) + x`. -/
def gfXPow64AddXInv : Block := 0x180da934bf53158251c13dbb149f5279

theorem iterate_gfSquare_gfX : gfSquare^[64] gfX = gfXPow64 := by decide +kernel

theorem iterate_gfSquare_gfXPow64 : gfSquare^[64] gfXPow64 = gfX := by decide +kernel

theorem gfXPow64_xor_gfX_gfMul_inv : gfMul (gfXPow64 ^^^ gfX) gfXPow64AddXInv = gfOne := by decide +kernel

theorem gfPolynomial_dvd_X_pow_sub_X {n : ℕ} (h : gfSquare^[n] gfX = gfX) : gfPolynomial ∣ X ^ 2 ^ n - X := by
  rw [← AdjoinRoot.mk_eq_mk, ← poly_gfX, ← mk_poly_iterate_gfSquare, h]

theorem gfPolynomial_isCoprime_X_pow_sub_X {n : ℕ} {v w : Block} (hv : gfSquare^[n] gfX = v)
    (hw : gfMul (v ^^^ gfX) w = gfOne) : IsCoprime gfPolynomial (X ^ 2 ^ n - X) := by
  have hinv : AdjoinRoot.mk gfPolynomial ((X ^ 2 ^ n - X) * poly w) = AdjoinRoot.mk gfPolynomial 1 := by
    rw [CharTwo.sub_eq_add, map_mul, map_add, ← poly_gfX, ← mk_poly_iterate_gfSquare, hv, ← map_add, ← poly_xor,
      ← map_mul, ← mk_poly_gfMul, hw, poly_gfOne]
  obtain ⟨q, hq⟩ := AdjoinRoot.mk_eq_mk.mp hinv.symm
  exact ⟨q, poly w, by linear_combination -hq⟩

theorem iterate_gfSquare_gfX_128 : gfSquare^[128] gfX = gfX := by
  rw [Function.iterate_add_apply gfSquare 64 64, iterate_gfSquare_gfX, iterate_gfSquare_gfXPow64]

theorem gfPolynomial_natDegree : gfPolynomial.natDegree = 128 := natDegree_eq_of_degree_eq_some gfPolynomial_degree

/-- A divisor of 128, a power of 2, that is not 128 divides 64. -/
theorem dvd_64_of_dvd_128 {d : ℕ} (h : d ∣ 128) (hne : d ≠ 128) : d ∣ 64 := by
  obtain ⟨k, hk, rfl⟩ := (Nat.dvd_prime_pow Nat.prime_two (m := 7)).mp h
  have hk6 : k ≤ 6 := by
    by_contra hlarge
    exact hne (by rw [show k = 7 by omega]; rfl)
  exact pow_dvd_pow 2 hk6

theorem natDegree_eq_128_of_irreducible_of_dvd {g : (ZMod 2)[X]} (hg : Irreducible g) (hdvd : g ∣ gfPolynomial) :
    g.natDegree = 128 := by
  by_contra hne
  have h128 : g ∣ X ^ Nat.card (ZMod 2) ^ 128 - X := by
    rw [Nat.card_zmod]
    exact hdvd.trans (gfPolynomial_dvd_X_pow_sub_X iterate_gfSquare_gfX_128)
  have h64 := hg.natDegree_dvd_iff_dvd_X_pow_card_pow_sub_X.mp
    (dvd_64_of_dvd_128 (hg.natDegree_dvd_of_dvd_X_pow_card_pow_sub_X h128) hne)
  rw [Nat.card_zmod] at h64
  exact hg.not_isUnit ((gfPolynomial_isCoprime_X_pow_sub_X iterate_gfSquare_gfX gfXPow64_xor_gfX_gfMul_inv).isUnit_of_dvd' hdvd h64)

/-- R114 (f): `P` is irreducible. -/
theorem gfPolynomial_irreducible : Irreducible gfPolynomial := by
  have hnotUnit : ¬ IsUnit gfPolynomial := by
    intro hunit
    have := natDegree_eq_zero_of_isUnit hunit
    rw [gfPolynomial_natDegree] at this
    exact absurd this (by decide)
  obtain ⟨g, hg, hdvd⟩ := WfDvdMonoid.exists_irreducible_factor hnotUnit gfPolynomial_monic.ne_zero
  have hdegree : gfPolynomial.natDegree ≤ g.natDegree := by
    rw [gfPolynomial_natDegree, natDegree_eq_128_of_irreducible_of_dvd hg hdvd]
  exact (associated_of_dvd_of_natDegree_le hdvd gfPolynomial_monic.ne_zero hdegree).irreducible hg

/-- The classes modulo an irreducible polynomial have no zero divisors, and a block is 0 when its class is. -/
theorem gfMul_eq_zero_iff (a b : Block) : gfMul a b = 0#128 ↔ a = 0#128 ∨ b = 0#128 := by
  constructor
  · intro h
    have hdomain : IsDomain (AdjoinRoot gfPolynomial) := AdjoinRoot.isDomain_of_prime gfPolynomial_irreducible.prime
    have hzero : AdjoinRoot.mk gfPolynomial (poly a) * AdjoinRoot.mk gfPolynomial (poly b) = 0 := by
      rw [← map_mul, ← mk_poly_gfMul, h, poly_zero, map_zero]
    rcases mul_eq_zero.mp hzero with ha | hb
    · exact .inl (mk_poly_injective (by rw [ha, poly_zero, map_zero]))
    · exact .inr (mk_poly_injective (by rw [hb, poly_zero, map_zero]))
  · rintro (rfl | rfl)
    · exact zero_gfMul b
    · exact gfMul_zero a

/-! ### Powers and the closed form of the hash (R140) -/

theorem gfPow_succ' (h : Block) (n : Nat) : gfPow h (n + 1) = gfMul h (gfPow h n) := gfMul_comm ..

/-- The fold from any accumulator: it counts as one more block, ahead of the others. -/
theorem foldl_foldBlock_eq (h y : Block) (xs : List Block) :
    xs.foldl (fun acc x => foldBlock acc x h) y = gfMul y (gfPow h xs.length) ^^^ ghashSum h xs := by
  induction xs generalizing y with
  | nil => rw [List.foldl_nil, List.length_nil, gfPow, gfMul_gfOne, ghashSum, BitVec.ofNat_eq_ofNat, BitVec.xor_zero]
  | cons x xs ih =>
    rw [List.foldl_cons, ih, foldBlock, gfMul_assoc, ← gfPow_succ', xor_gfMul, BitVec.xor_assoc, List.length_cons, ghashSum]

end Sys2Proof.Machine

namespace Sys2Proof.Proofs

open Sys2Proof.Machine

/-- Settles O39: the three laws are those of polynomials, carried over by `mk_poly_gfMul`. -/
theorem multiplierIsCommutativeAssociativeDistributive : Obligations.MultiplierIsCommutativeAssociativeDistributive :=
  ⟨gfMul_comm, gfMul_assoc, xor_gfMul⟩

/-- Settles O41: the reduction polynomial is prime (`gfPolynomial_irreducible`), so its classes form a domain. -/
theorem multiplierHasNoZeroDivisors : Obligations.MultiplierHasNoZeroDivisors :=
  fun a b => (gfMul_eq_zero_iff a b).mp

/-- Settles O43: `foldl_foldBlock_eq` from the accumulator 0. -/
theorem hashIsASumOfPowers : Obligations.HashIsASumOfPowers := by
  intro h xs
  rw [foldl_foldBlock_eq, BitVec.ofNat_eq_ofNat, zero_gfMul, BitVec.zero_xor]

end Sys2Proof.Proofs
end

section
/-!
The keystream applied twice (R158), and the requests a command makes to the cipher (R159).
-/
namespace Sys2Proof.Machine

@[simp] theorem ctrFrom_length (c : Cipher) (ks : Option KeySchedule) (j : Block) (off : Nat) (data : Bytes) :
    (ctrFrom c ks j off data).length = data.length := by
  induction data generalizing off with
  | nil => rfl
  | cons b bs ih => rw [ctrFrom, List.length_cons, ih, List.length_cons]

/-- The keystream does not depend on the data, so its second xor undoes the first. -/
theorem ctrFrom_ctrFrom (c : Cipher) (ks : Option KeySchedule) (j : Block) (off : Nat) (data : Bytes) :
    ctrFrom c ks j off (ctrFrom c ks j off data) = data := by
  induction data generalizing off with
  | nil => rfl
  | cons b bs ih => rw [ctrFrom, ctrFrom, ih, BitVec.xor_assoc, BitVec.xor_self, BitVec.xor_zero]

/-! How many requests (R159). -/

theorem updateRequests_length (chunk : Bytes) (off : Nat) (cb : Block) :
    (updateRequests chunk off cb).length = blocksBegun (off + chunk.length) - blocksBegun off := by
  induction chunk generalizing off cb with
  | nil => simp [updateRequests]
  | cons b bs ih =>
    rw [updateRequests]
    split <;> simp only [List.length_cons, ih, blocksBegun] <;> omega

theorem cipherRequests_init_length (c : Cipher) (key : Bytes) (s : State) :
    (cipherRequests c (.init key) s).length = if (initCommand c key s).code = 0 then 1 else 0 := by
  rcases initCommand_cases c key s with ⟨hst, h⟩ | ⟨hst, hkey, h⟩ | ⟨k, hst, hkey, h⟩
  · simp [cipherRequests, hst, h, Status.number]
  · simp [cipherRequests, hst, hkey, h, Status.number]
  · simp [cipherRequests, hst, hkey, h]

/-- Both directions of UPDATE make these requests when they are accepted. -/
theorem updateRequests_length_of_command (c : Cipher) (dir : Dir) (chunk : Bytes) (s : State) :
    (if updateAccepts s.st && dataFits s.dataLen chunk then updateRequests chunk s.dataLen.toNat s.cb else []).length =
      if (updateCommand c dir chunk s).code = 0 then blocksBegun (s.dataLen.toNat + chunk.length) - blocksBegun s.dataLen.toNat
      else 0 := by
  rcases updateCommand_cases c dir chunk s with ⟨hst, h⟩ | ⟨hst, hfits, h⟩ | ⟨hst, hfits, h⟩
  · simp [hst, h, Status.number]
  · simp [hst, hfits, h, Status.number]
  · simp [hst, hfits, h, updateRequests_length]

theorem cipherRequests_finishE_length (c : Cipher) (taglen : BitVec 8) (s : State) :
    (cipherRequests c (.finishE taglen) s).length = if (finishECommand c taglen s).code = 0 then 1 else 0 := by
  rw [cipherRequests, finishECommand]
  rcases finishCheck_cases taglen none s with ⟨-, h⟩ | ⟨-, -, h⟩ | ⟨-, -, -, h⟩
  · simp [h, Status.number]
  · simp [h, Status.number]
  · simp [h]

/-- FINISH.D asks before it compares, so both verdicts have made the request. -/
theorem cipherRequests_finishD_length (c : Cipher) (taglen : BitVec 8) (tag : Bytes) (s : State) :
    (cipherRequests c (.finishD taglen tag) s).length =
      if (finishDCommand c taglen tag s).code = 0 ∨ (finishDCommand c taglen tag s).code = 5 then 1 else 0 := by
  rw [cipherRequests, finishDCommand]
  rcases finishCheck_cases taglen (some tag.length) s with ⟨-, h⟩ | ⟨-, -, h⟩ | ⟨-, -, -, h⟩
  · simp [h, Status.number]
  · simp [h, Status.number]
  · simp only [h]
    cases ctEq (finishEffect c taglen s).2 tag <;> simp [Status.number]

/-! Two ciphers that answer a command's requests alike (R10, R159). -/

section agree
variable {c c' : Cipher} {s : State}

theorem updateByte_congr (dir : Dir) (b : Byte) (h : beginByte c s = beginByte c' s) :
    updateByte c dir b s = updateByte c' dir b s := by
  have hout : (updateByte c dir b s).2 = (updateByte c' dir b s).2 := by rw [updateByte_out, updateByte_out, h]
  refine Prod.ext ?_ hout
  rw [updateByte_state, updateByte_state, hout, h]

/-- Byte by byte: at the first byte of a block the request is the head of the list, at any other byte there is none. -/
theorem updateLoop_congr (dir : Dir) {chunk : Bytes} (hbound : s.dataLen.toNat + chunk.length < 2 ^ 64)
    (h : AgreeOn c c' s.ks (updateRequests chunk s.dataLen.toNat s.cb)) : updateLoop c dir chunk s = updateLoop c' dir chunk s := by
  induction chunk generalizing s with
  | nil => rfl
  | cons b bs ih =>
    rw [List.length_cons] at hbound
    have hlen : (updateByte c' dir b s).1.dataLen.toNat = s.dataLen.toNat + 1 := by
      rw [updateByte_dataLen, dataLen_succ_toNat (by omega)]
    have hsplit : beginByte c s = beginByte c' s ∧
        AgreeOn c c' s.ks (updateRequests bs (s.dataLen.toNat + 1) (beginByte c' s).cb) := by
      rw [updateRequests] at h
      rw [beginByte, beginByte]
      split at h
      · next hfirst =>
        obtain ⟨hhead, htail⟩ := List.forall_mem_cons.mp h
        rw [if_pos hfirst, if_pos hfirst, nextKeystream, nextKeystream, hhead]
        exact ⟨rfl, htail⟩
      · next hlater =>
        rw [if_neg hlater, if_neg hlater]
        exact ⟨rfl, h⟩
    obtain ⟨hbegin, hrest⟩ := hsplit
    rw [updateLoop_cons, updateLoop_cons, updateByte_congr dir b hbegin, ih (by omega)]
    rwa [hlen, updateByte_cb, updateByte_ks]

theorem updateCommand_congr (dir : Dir) {chunk : Bytes}
    (h : AgreeOn c c' s.ks
      (if updateAccepts s.st && dataFits s.dataLen chunk then updateRequests chunk s.dataLen.toNat s.cb else [])) :
    updateCommand c dir chunk s = updateCommand c' dir chunk s := by
  rw [updateCommand, updateCommand]
  split
  · next hst =>
    split
    · next hfits =>
      rw [hst, hfits] at h
      have hbound : s.dataLen.toNat + chunk.length ≤ 2 ^ 36 - 32 := of_decide_eq_true hfits
      rw [updateLoop_congr dir (by omega) h]
    · rfl
  · rfl

theorem finishEffect_congr (taglen : BitVec 8) (h : encrypt c s.ks s.j0 = encrypt c' s.ks s.j0) :
    finishEffect c taglen s = finishEffect c' taglen s := by
  refine Prod.ext ?_ ?_
  · rw [finishEffect_state, finishEffect_state]
  · rw [finishEffect_tag, finishEffect_tag, maskTag, maskTag, h]

theorem initCommand_congr {key : Bytes} (hsetup : keySetup c key = keySetup c' key)
    (h : AgreeOn c c' (keySetup c key) (cipherRequests c (.init key) s)) : initCommand c key s = initCommand c' key s := by
  rw [initCommand, initCommand, ← hsetup]
  split
  · next hst =>
    cases hkey : keySetup c key with
    | none => rfl
    | some k =>
      have hzero : encrypt c (some k) 0 = encrypt c' (some k) 0 := by
        rw [hkey] at h
        exact h 0 (by simp [cipherRequests, hst, hkey])
      simp only [hzero]
  · rfl

theorem finishECommand_congr {taglen : BitVec 8} (h : AgreeOn c c' s.ks (cipherRequests c (.finishE taglen) s)) :
    finishECommand c taglen s = finishECommand c' taglen s := by
  rw [finishECommand, finishECommand]
  cases hcheck : finishCheck taglen none s with
  | some e => rfl
  | none =>
    have hmask : encrypt c s.ks s.j0 = encrypt c' s.ks s.j0 := h s.j0 (by simp [cipherRequests, hcheck])
    simp only [finishEffect_congr taglen hmask]

theorem finishDCommand_congr {taglen : BitVec 8} {tag : Bytes}
    (h : AgreeOn c c' s.ks (cipherRequests c (.finishD taglen tag) s)) :
    finishDCommand c taglen tag s = finishDCommand c' taglen tag s := by
  rw [finishDCommand, finishDCommand]
  cases hcheck : finishCheck taglen (some tag.length) s with
  | some e => rfl
  | none =>
    have hmask : encrypt c s.ks s.j0 = encrypt c' s.ks s.j0 := h s.j0 (by simp [cipherRequests, hcheck])
    simp only [finishEffect_congr taglen hmask]

end agree

end Sys2Proof.Machine

namespace Sys2Proof.Proofs

open Sys2Proof.Machine

/-- Settles O48: `ctrFrom_ctrFrom`, for every cipher and offset. -/
theorem keystreamIsSelfInverse : Obligations.KeystreamIsSelfInverse := ctrFrom_ctrFrom

/-- Settles O49: a count per command, read off the cases of its answer. -/
theorem cipherRequestCounts : Obligations.CipherRequestCounts := by
  intro c s
  exact ⟨fun key => cipherRequests_init_length c key s, fun iv aad => rfl,
    fun chunk => updateRequests_length_of_command c .enc chunk s, fun chunk => updateRequests_length_of_command c .dec chunk s,
    fun taglen => cipherRequests_finishE_length c taglen s, fun taglen tag => cipherRequests_finishD_length c taglen tag s⟩

/-- Settles O50: each command's only uses of the cipher are at the blocks of its list; START has none. -/
theorem commandSeesOnlyItsCipherRequests : Obligations.CommandSeesOnlyItsCipherRequests := by
  intro c c' i s hsizes hexpand h
  cases i with
  | init key =>
    have hsetup : keySetup c key = keySetup c' key := by rw [keySetup, keySetup, hsizes, hexpand]
    exact initCommand_congr hsetup h
  | start iv aad => rfl
  | updateE chunk => exact updateCommand_congr .enc h
  | updateD chunk => exact updateCommand_congr .dec h
  | finishE taglen => exact finishECommand_congr h
  | finishD taglen tag => exact finishDCommand_congr h

end Sys2Proof.Proofs
end

section
/-!
The host's actions on the two streams (R60, R68), and events on a platform of several instances (R74, R250).
-/
namespace Sys2Proof.Machine

/-- An event that completes is the engine's own next state, put back in its place. -/
theorem event_eq_next_iff {n : Nat} {k : Fin n} {e : Event} {p q : Platform n} :
    Platform.event k e p = .next q ↔
      ∃ t, engineEvent e p.engines[k] = .next t ∧ q = { p with engines := p.engines.set k t } := by
  rw [Platform.event]
  cases engineEvent e p.engines[k] with
  | next t => simp [eq_comm]
  | fault r => simp
  | refused r => simp

/-- `Vector.getElem_set_ne` at the indices of a platform. -/
theorem getElem_set_ne {n : Nat} (engines : Vector State n) {k j : Fin n} (t : State) (h : j ≠ k) :
    (engines.set k t)[j] = engines[j] := by
  simp [Fin.val_ne_of_ne h.symm]

end Sys2Proof.Machine

namespace Sys2Proof.Proofs

open Sys2Proof.Machine

/-- Settles O58: what is read and what is left of the response stream are its two parts. -/
theorem hostActionsTouchOnlyTheStreams : Obligations.HostActionsTouchOnlyTheStreams :=
  fun s _ n => ⟨rfl, rfl, List.take_append_drop n s.rsp⟩

/-- Settles O59: the platform is a vector of engines, and the event writes one place of it. -/
theorem eventTouchesOneInstance : Obligations.EventTouchesOneInstance := by
  intro n k e p q h
  obtain ⟨t, hown, rfl⟩ := event_eq_next_iff.mp h
  exact ⟨by simpa using hown, fun j hj => getElem_set_ne p.engines t hj⟩

/-- Settles O60: the second event reads an engine that the first has not written, and writes at two places commute. -/
theorem eventsAtTwoInstancesCommute : Obligations.EventsAtTwoInstancesCommute := by
  intro n k j e f p q r hkj hfirst hsecond
  obtain ⟨t, ht, rfl⟩ := event_eq_next_iff.mp hfirst
  obtain ⟨u, hu, rfl⟩ := event_eq_next_iff.mp hsecond
  rw [getElem_set_ne p.engines t hkj.symm] at hu
  refine ⟨_, event_eq_next_iff.mpr ⟨u, hu, rfl⟩, event_eq_next_iff.mpr ⟨t, ?_, ?_⟩⟩
  · rw [getElem_set_ne p.engines u hkj, ht]
  · simp only [Platform.mk.injEq]
    exact Vector.set_comm t u (Fin.val_ne_of_ne hkj)

end Sys2Proof.Proofs
end

section
/-!
One flipped bit in what is hashed (R205 (b)), and in the IV (R205 (c)).
-/
namespace Sys2Proof.Machine

/-! ### A flipped bit in a string and in its blocks -/

@[simp] theorem flipBit_length (data : Bytes) (k b : Nat) : (flipBit data k b).length = data.length :=
  List.length_modify _ _ _

theorem xor_one_shiftLeft_ne (x : Byte) {b : Nat} (hb : b < 8) : x ^^^ ((1 : Byte) <<< b) ≠ x := by
  intro h
  have hbit := congrArg (fun v => v.getLsbD b) h
  simp [hb] at hbit

theorem flipBit_ne {data : Bytes} {k b : Nat} (hb : b < 8) (hk : k < data.length) : flipBit data k b ≠ data := by
  intro h
  have hbyte : (flipBit data k b)[k]? = data[k]? := congrArg (·[k]?) h
  rw [flipBit, List.getElem?_modify_eq, List.getElem?_eq_getElem hk, Option.map_eq_map, Option.map_some, Option.some.injEq] at hbyte
  exact xor_one_shiftLeft_ne _ hb hbyte

theorem blk_injective {a b : Bytes} (ha : a.length = 16) (hb : b.length = 16) (h : blk a = blk b) : a = b := by
  rw [← bytes16_blk a ha, h, bytes16_blk b hb]

/-- Strings of one length are told apart by their padded blocks. -/
theorem padBlock_injective {p q : Bytes} (hlen : p.length = q.length) (hp : p.length ≤ 16) (h : padBlock p = padBlock q) :
    p = q := by
  rw [padBlock, padBlock, hlen] at h
  exact List.append_cancel_right (blk_injective (by simp; omega) (by simp; omega) h)

/-- A string cut at the block that holds byte `k`: whole blocks, that block (the last one may be shorter), and the rest. -/
theorem exists_block_at {data : Bytes} {k : Nat} (hk : k < data.length) :
    ∃ (w p tail : Bytes) (j : Nat), data = w ++ (p ++ tail) ∧ k = w.length + j ∧ j < p.length ∧
      16 ∣ w.length ∧ p.length ≤ 16 ∧ (tail = [] ∨ 16 ∣ p.length) := by
  have hw : (data.take (16 * (k / 16))).length = 16 * (k / 16) := by
    rw [List.length_take]
    omega
  have hp : ((data.drop (16 * (k / 16))).take 16).length = min 16 (data.length - 16 * (k / 16)) := by
    rw [List.length_take, List.length_drop]
  refine ⟨data.take (16 * (k / 16)), (data.drop (16 * (k / 16))).take 16, (data.drop (16 * (k / 16))).drop 16, k % 16,
    ?_, ?_, ?_, ?_, ?_, ?_⟩
  · rw [List.take_append_drop, List.take_append_drop]
  · rw [hw]
    omega
  · rw [hp]
    omega
  · rw [hw]
    exact Dvd.intro _ rfl
  · rw [hp]
    omega
  · by_cases hlast : data.length - 16 * (k / 16) ≤ 16
    · exact .inl (List.drop_eq_nil_of_le (by rw [List.length_drop]; exact hlast))
    · refine .inr ?_
      rw [hp]
      omega

theorem flipBit_append_right (w r : Bytes) (j b : Nat) : flipBit (w ++ r) (w.length + j) b = w ++ flipBit r j b := by
  induction w with
  | nil => rw [List.nil_append, List.length_nil, Nat.zero_add, List.nil_append]
  | cons x xs ih =>
    rw [flipBit, List.cons_append, List.length_cons, Nat.add_right_comm, List.modify_succ_cons]
    exact congrArg (x :: ·) ih

theorem flipBit_append_left {p : Bytes} (tail : Bytes) {j : Nat} (b : Nat) (hj : j < p.length) :
    flipBit (p ++ tail) j b = flipBit p j b ++ tail := by
  induction p generalizing j with
  | nil => exact absurd hj (Nat.not_lt_zero j)
  | cons x xs ih =>
    cases j with
    | zero => rfl
    | succ j => exact congrArg (x :: ·) (ih (Nat.lt_of_succ_lt_succ hj))

/-! ### The difference a change makes to the hash -/

/-- `a` and `b` differ by a block other than 0 times a power of `h`. -/
def DiffersByPower (h a b : Block) : Prop := ∃ (d : Block) (n : Nat), d ≠ 0#128 ∧ a = b ^^^ gfMul d (gfPow h (n + 1))

theorem gfPow_eq_zero_iff (h : Block) (n : Nat) : gfPow h (n + 1) = 0#128 ↔ h = 0#128 := by
  induction n with
  | zero => rw [gfPow, gfPow, gfOne_gfMul]
  | succ n ih => rw [gfPow, gfMul_eq_zero_iff, ih, or_self]

theorem DiffersByPower.ne_iff {h a b : Block} (hab : DiffersByPower h a b) : a ≠ b ↔ h ≠ 0 := by
  obtain ⟨d, n, hd, rfl⟩ := hab
  refine not_congr ?_
  calc b ^^^ gfMul d (gfPow h (n + 1)) = b
      ↔ b ^^^ gfMul d (gfPow h (n + 1)) = b ^^^ 0#128 := by rw [BitVec.xor_zero]
    _ ↔ gfMul d (gfPow h (n + 1)) = 0#128 := BitVec.xor_right_inj b
    _ ↔ d = 0#128 ∨ h = 0#128 := by rw [gfMul_eq_zero_iff, gfPow_eq_zero_iff]
    _ ↔ h = 0#128 := or_iff_right hd

theorem foldBlock_differs_of_acc {h a b : Block} (x : Block) (hab : DiffersByPower h a b) :
    DiffersByPower h (foldBlock a x h) (foldBlock b x h) := by
  obtain ⟨d, n, hd, rfl⟩ := hab
  have hmove : b ^^^ gfMul d (gfPow h (n + 1)) ^^^ x = (b ^^^ x) ^^^ gfMul d (gfPow h (n + 1)) := by ac_rfl
  exact ⟨d, n + 1, hd, by rw [foldBlock, foldBlock, hmove, xor_gfMul, gfMul_assoc]; rfl⟩

theorem foldBlock_differs_of_block {x x' : Block} (y h : Block) (hx : x' ≠ x) :
    DiffersByPower h (foldBlock y x' h) (foldBlock y x h) := by
  refine ⟨x ^^^ x', 0, fun hzero => hx (BitVec.xor_eq_zero_iff.mp hzero).symm, ?_⟩
  rw [foldBlock, foldBlock, gfPow, gfPow, gfOne_gfMul, ← xor_gfMul, ← BitVec.xor_assoc, BitVec.xor_assoc y x x, BitVec.xor_self,
    BitVec.xor_zero]

theorem absorb_differs_of_acc {h a b : Block} (data : Bytes) (hab : DiffersByPower h a b) :
    DiffersByPower h (absorb a data h) (absorb b data h) := by
  rw [absorb, absorb]
  induction blocks (pad16 data) generalizing a b with
  | nil => exact hab
  | cons x xs ih => exact ih (foldBlock_differs_of_acc x hab)

/-- The block that holds byte `k` is the only one that changes. -/
theorem absorb_flipBit_differs (y h : Block) {data : Bytes} {k b : Nat} (hb : b < 8) (hk : k < data.length) :
    DiffersByPower h (absorb y (flipBit data k b) h) (absorb y data h) := by
  obtain ⟨w, p, tail, j, rfl, rfl, hj, hw, hp, htail⟩ := exists_block_at hk
  have hsplit (q : Bytes) (hq : q.length = p.length) :
      absorb y (w ++ (q ++ tail)) h = absorb (foldBlock (absorb y w h) (padBlock q) h) tail h := by
    rw [absorb_append _ _ _ _ hw, ← absorb_eq_foldBlock_padBlock _ _ _ (by omega) (by omega)]
    rcases htail with rfl | hdvd
    · rw [List.append_nil, absorb_nil]
    · exact absorb_append _ _ _ _ (hq ▸ hdvd)
  have hblock : padBlock (flipBit p j b) ≠ padBlock p := fun heq =>
    flipBit_ne hb hj (padBlock_injective (flipBit_length p j b) (by rwa [flipBit_length]) heq)
  rw [flipBit_append_right, flipBit_append_left tail b hj, hsplit _ (flipBit_length p j b), hsplit p rfl]
  exact absorb_differs_of_acc tail (foldBlock_differs_of_block _ h hblock)

theorem ghashMsg_flipBit_ct_differs (h : Block) (aad : Bytes) {ct : Bytes} {k b : Nat} (hb : b < 8) (hk : k < ct.length) :
    DiffersByPower h (ghashMsg h aad (flipBit ct k b)) (ghashMsg h aad ct) := by
  rw [ghashMsg, ghashMsg, flipBit_length]
  exact foldBlock_differs_of_acc _ (absorb_flipBit_differs _ h hb hk)

theorem ghashMsg_flipBit_aad_differs (h : Block) {aad : Bytes} (ct : Bytes) {k b : Nat} (hb : b < 8) (hk : k < aad.length) :
    DiffersByPower h (ghashMsg h (flipBit aad k b) ct) (ghashMsg h aad ct) := by
  rw [ghashMsg, ghashMsg, flipBit_length]
  exact foldBlock_differs_of_acc _ (absorb_differs_of_acc ct (absorb_flipBit_differs 0 h hb hk))

/-! ### The 128-bit tag and `J0` -/

/-- The tag of 128 bits is the full tag's sixteen bytes. -/
theorem gcmTag_128_eq_iff (c : Cipher) (ks : Option KeySchedule) (iv iv' aad aad' ct ct' : Bytes) :
    gcmTag c ks iv aad ct 128 = gcmTag c ks iv' aad' ct' 128 ↔ fullTag c ks iv aad ct = fullTag c ks iv' aad' ct' := by
  have hall (tag : Block) : msb tag 128 = bytes16 tag := List.take_of_length_le (by simp)
  rw [gcmTag_eq_msb_fullTag, gcmTag_eq_msb_fullTag, hall, hall]
  exact ⟨fun h => by rw [← blk_bytes16 (fullTag c ks iv aad ct), h, blk_bytes16], congrArg bytes16⟩

/-- For one IV the mask is one: the full tag tells what the hash tells (R176). -/
theorem fullTag_eq_iff_hash (c : Cipher) (ks : Option KeySchedule) (iv aad aad' ct ct' : Bytes) :
    fullTag c ks iv aad ct = fullTag c ks iv aad' ct' ↔
      ghashMsg (hashSubkey c ks) aad ct = ghashMsg (hashSubkey c ks) aad' ct' := by
  rw [fullTag, fullTag, maskTag, maskTag, BitVec.xor_left_inj]

/-- For one message the hash is one: the full tag tells what the masks tell (R176). -/
theorem fullTag_eq_iff_mask (c : Cipher) (ks : Option KeySchedule) (iv iv' aad ct : Bytes) :
    fullTag c ks iv aad ct = fullTag c ks iv' aad ct ↔
      encrypt c ks (deriveJ0 (hashSubkey c ks) iv) = encrypt c ks (deriveJ0 (hashSubkey c ks) iv') := by
  rw [fullTag, fullTag, maskTag, maskTag, BitVec.xor_right_inj]

theorem deriveJ0_flipBit_ne {iv : Bytes} (h : Block) {k b : Nat} (hb : b < 8) (hk : k < iv.length) (hlen : iv.length = 12) :
    deriveJ0 h (flipBit iv k b) ≠ deriveJ0 h iv := by
  have hlen' : (flipBit iv k b).length = 12 := by rw [flipBit_length, hlen]
  rw [deriveJ0_of_length_eq h hlen, deriveJ0_of_length_eq h hlen']
  intro heq
  exact flipBit_ne hb hk (List.append_cancel_right (blk_injective (by simp [be32, hlen]) (by simp [be32, hlen]) heq))

theorem deriveJ0_flipBit_differs {iv : Bytes} (h : Block) {k b : Nat} (hb : b < 8) (hk : k < iv.length) (hlen : iv.length ≠ 12) :
    DiffersByPower h (deriveJ0 h (flipBit iv k b)) (deriveJ0 h iv) := by
  rw [deriveJ0_of_length_ne h hlen, deriveJ0_of_length_ne h (by rwa [flipBit_length]), flipBit_length]
  exact foldBlock_differs_of_acc _ (absorb_flipBit_differs 0 h hb hk)

end Sys2Proof.Machine

namespace Sys2Proof.Proofs

open Sys2Proof.Machine

/-- Settles O55: the change is a block other than 0 times a power of `H`, and the field has no zero divisors. -/
theorem flippedBitChangesTheHash : Obligations.FlippedBitChangesTheHash := by
  constructor
  · intro h aad ct k b hb
    exact ⟨fun hk => (ghashMsg_flipBit_ct_differs h aad hb hk).ne_iff,
      fun hk => (ghashMsg_flipBit_aad_differs h ct hb hk).ne_iff⟩
  · intro c ks iv aad ct k b hb
    simp only [ne_eq, gcmTag_128_eq_iff, fullTag_eq_iff_hash]
    exact ⟨fun hk => (ghashMsg_flipBit_ct_differs _ aad hb hk).ne_iff,
      fun hk => (ghashMsg_flipBit_aad_differs _ ct hb hk).ne_iff⟩

/-- Settles O56: on the 96-bit path `J0` holds the IV itself; on the other it is a hash, which O55's argument covers. -/
theorem flippedIvBitChangesJ0 : Obligations.FlippedIvBitChangesJ0 := by
  intro c ks h iv aad ct k b hb hk
  refine ⟨deriveJ0_flipBit_ne h hb hk, fun hlen => (deriveJ0_flipBit_differs h hb hk hlen).ne_iff, not_congr ?_⟩
  rw [gcmTag_128_eq_iff, fullTag_eq_iff_mask]

end Sys2Proof.Proofs
end

section
/-!
Whole messages: START, any UPDATEs of one direction, FINISH (R203).
-/
namespace Sys2Proof.Machine

/-- The engine processes a message under the key of `s0`: the ciphertext `ct` stands processed, and the invariant holds
(R47 (c), R137). -/
structure Processing (c : Cipher) (iv aad ct : Bytes) (s0 s : State) : Prop where
  ks_eq : s.ks = s0.ks
  h_eq : s.h = s0.h
  inv : EngineInv c s
  soFar : MessageSoFar iv aad ct s

section processing
variable {c : Cipher} {iv aad ct : Bytes} {s0 s : State}

theorem Processing.st_eq (hp : Processing c iv aad ct s0 s) : s.st = .active := hp.soFar.1

theorem Processing.j0_eq (hp : Processing c iv aad ct s0 s) : s.j0 = deriveJ0 s0.h iv := by
  obtain ⟨-, hj0, -⟩ := (messageSoFar_iff ..).mp hp.soFar
  rw [hj0, hp.h_eq]

/-- START begins a message with no ciphertext yet (R193). -/
theorem startEffect_processing (iv : Bytes) (hkey : KeyBound c s) (haad : aad.length < 2 ^ 61) :
    Processing c iv aad [] s (startEffect iv aad s) where
  ks_eq := rfl
  h_eq := rfl
  inv := ⟨hkey, startEffect_messageActive c iv s haad⟩
  soFar := (messageSoFar_iff ..).mpr ⟨rfl, rfl, rfl, rfl, rfl, padBlock_nil.symm⟩

/-- The answer of a command has no part in the message. -/
theorem Processing.answered (hp : Processing c iv aad ct s0 s) (e : Status) (out : Bytes) :
    Processing c iv aad ct s0 (respond e out s) where
  ks_eq := hp.ks_eq
  h_eq := hp.h_eq
  inv := (engineInv_respond_iff ..).mpr hp.inv
  soFar := (messageSoFar_respond_iff ..).mpr hp.soFar

theorem startCommand_processing (hst : s.st = .ready ∨ s.st = .finished) (hkey : KeyBound c s) (hiv : iv ≠ [])
    (haad : aad.length < 2 ^ 61) : Processing c iv aad [] s (startCommand iv aad s) := by
  rw [startCommand_eq_succeed aad ((startAccepts_iff _).mpr hst) hiv]
  exact (startEffect_processing iv hkey haad).answered .ok []

theorem startCommand_rsp (aad : Bytes) (hst : s.st = .ready ∨ s.st = .finished) (hiv : iv ≠ []) :
    (startCommand iv aad s).rsp = s.rsp ++ responsePacket 0 .active [] := by
  rw [startCommand_eq_succeed aad ((startAccepts_iff _).mpr hst) hiv]
  rfl

/-- UPDATE goes on with the message: its output is the keystream xor at the message offset reached (R194). -/
theorem Processing.update {chunk : Bytes} (hp : Processing c iv aad ct s0 s) (dir : Dir)
    (hbound : ct.length + chunk.length ≤ 2 ^ 36 - 32) :
    Processing c iv aad (ct ++ cipherBytes dir chunk (ctrFrom c s0.ks (deriveJ0 s0.h iv) ct.length chunk)) s0
      (updateCommand c dir chunk s) := by
  have hlen := dataLen_toNat_of_messageSoFar hp.soFar (by omega)
  have hfits : dataFits s.dataLen chunk = true := decide_eq_true (by rw [hlen]; exact hbound)
  have hsoFar := updateCommand_messageSoFar dir hp.soFar hp.inv hbound
  rw [hp.ks_eq, hp.j0_eq] at hsoFar
  have hcommand := updateCommand_eq_succeed (chunk := chunk) c dir hp.st_eq (by omega)
  refine ⟨?_, ?_, ?_, hsoFar⟩ <;> rw [hcommand]
  · rw [succeed_ks, updateLoop_ks, hp.ks_eq]
  · rw [succeed_h, updateLoop_h, hp.h_eq]
  · exact (engineInv_respond_iff ..).mpr (updateLoop_engineInv dir hp.inv hp.st_eq hfits)

theorem Processing.update_rsp {chunk : Bytes} (hp : Processing c iv aad ct s0 s) (dir : Dir)
    (hbound : ct.length + chunk.length ≤ 2 ^ 36 - 32) :
    (updateCommand c dir chunk s).rsp =
      s.rsp ++ responsePacket 0 .active (ctrFrom c s0.ks (deriveJ0 s0.h iv) ct.length chunk) := by
  have hlen := dataLen_toNat_of_messageSoFar hp.soFar (by omega)
  rw [updateCommand_rsp c dir hp.st_eq (by omega), updateLoop_out dir (counterInStep_of_messageSoFar hp.soFar hp.inv) (by omega),
    hlen, hp.ks_eq, hp.j0_eq]

/-- The hash FINISH closes with is that of the whole message (R138, R175). -/
theorem finalHash_y_of_messageSoFar (h : MessageSoFar iv aad ct s) (haad : aad.length < 2 ^ 61) (hct : ct.length ≤ 2 ^ 36 - 32) :
    (finalHash s).y = ghashMsg s.h aad ct := by
  have hlen := dataLen_toNat_of_messageSoFar h hct
  obtain ⟨-, -, haadLen, -, hhash⟩ := (messageSoFar_iff ..).mp h
  have hflush : (flush (ct.length % 16) s).y = absorb (absorb 0 aad s.h) ct s.h := by
    rw [(hashedFrom_iff_eq_hashSoFar _ _ s).mp hhash, flush_hashSoFar]
    rfl
  rw [finalHash_y, hlen, hflush, haadLen, BitVec.toNat_ofNat, Nat.mod_eq_of_lt (by omega), ghashMsg]

theorem Processing.tag_eq (hp : Processing c iv aad ct s0 s) (hkey : KeyBound c s0) (taglen : BitVec 8) (haad : aad.length < 2 ^ 61)
    (hct : ct.length ≤ 2 ^ 36 - 32) : (finishEffect c taglen s).2 = gcmTag c s0.ks iv aad ct taglen.toNat := by
  rw [finishEffect_tag, finalHash_y_of_messageSoFar hp.soFar haad hct, hp.ks_eq, hp.h_eq, hp.j0_eq, hkey.2]
  rfl

theorem Processing.finishE (hp : Processing c iv aad ct s0 s) (hkey : KeyBound c s0) {taglen : BitVec 8}
    (hok : taglenOk taglen.toNat = true) (haad : aad.length < 2 ^ 61) (hct : ct.length ≤ 2 ^ 36 - 32) :
    finishECommand c taglen s = succeed (gcmTag c s0.ks iv aad ct taglen.toNat) (finishEffect c taglen s).1 := by
  rw [finishECommand_eq_succeed c hp.st_eq hok, hp.tag_eq hkey taglen haad hct]

theorem Processing.finishD (hp : Processing c iv aad ct s0 s) (hkey : KeyBound c s0) {taglen : BitVec 8} {tag : Bytes}
    (hok : taglenOk taglen.toNat = true) (hlen : tag.length = taglen.toNat / 8) (haad : aad.length < 2 ^ 61)
    (hct : ct.length ≤ 2 ^ 36 - 32) :
    finishDCommand c taglen tag s =
      respond (if gcmTag c s0.ks iv aad ct taglen.toNat = tag then .ok else .authenticationFailed) []
        (finishEffect c taglen s).1 := by
  rw [finishDCommand_eq_respond c hp.st_eq hok hlen, hp.tag_eq hkey taglen haad hct]

end processing

theorem gcmTag_length (c : Cipher) (ks : Option KeySchedule) (iv aad ct : Bytes) {t : Nat} (hok : taglenOk t = true) :
    (gcmTag c ks iv aad ct t).length = t / 8 := by
  obtain ⟨-, -, hmax⟩ := (taglenOk_iff t).mp hok
  rw [gcmTag_eq_msb_fullTag, msb_length _ hmax]

/-- `gcm_decrypt` fails exactly when the tag is not the message's (R182). -/
theorem gcmDecrypt_eq (c : Cipher) (ks : Option KeySchedule) (iv aad ct : Bytes) {tag : Bytes} {t : Nat} (hok : taglenOk t = true)
    (hlen : tag.length = t / 8) :
    gcmDecrypt c ks iv aad ct tag t =
      if gcmTag c ks iv aad ct t = tag then some (ctr c ks (deriveJ0 (hashSubkey c ks) iv) ct) else none := by
  have hlengths : (gcmTag c ks iv aad ct t).length = tag.length := by rw [gcmTag_length c ks iv aad ct hok, hlen]
  simp only [gcmDecrypt, ctEq_iff_eq hlengths]

/-! The UPDATEs of a message, one after another. -/

theorem cipherBytes_enc (input output : Bytes) : cipherBytes .enc input output = output := rfl

theorem cipherBytes_dec (input output : Bytes) : cipherBytes .dec input output = input := rfl

/-- The UPDATE of a direction as a command (R80). -/
def updateInstr (dir : Dir) (chunk : Bytes) : Instr :=
  match dir with
  | .enc => .updateE chunk
  | .dec => .updateD chunk

theorem commandFor_updateInstr (c : Cipher) (dir : Dir) (chunk : Bytes) (s : State) :
    commandFor c (updateInstr dir chunk) s = updateCommand c dir chunk s := by
  cases dir <;> rfl

/-- The outputs of the UPDATEs for the chunks of a message, from message offset `off` on (R200). -/
def chunkOutputs (c : Cipher) (ks : Option KeySchedule) (j : Block) : Nat → List Bytes → List Bytes
  | _, [] => []
  | off, chunk :: chunks => ctrFrom c ks j off chunk :: chunkOutputs c ks j (off + chunk.length) chunks

theorem ctrFrom_append (c : Cipher) (ks : Option KeySchedule) (j : Block) (off : Nat) (a b : Bytes) :
    ctrFrom c ks j off (a ++ b) = ctrFrom c ks j off a ++ ctrFrom c ks j (off + a.length) b := by
  induction a generalizing off with
  | nil => rfl
  | cons x xs ih =>
    have hoff : off + 1 + xs.length = off + (x :: xs).length := by
      rw [List.length_cons]
      omega
    rw [List.cons_append, ctrFrom, ih, hoff, ctrFrom, List.cons_append]

theorem chunkOutputs_flatten (c : Cipher) (ks : Option KeySchedule) (j : Block) (off : Nat) (chunks : List Bytes) :
    (chunkOutputs c ks j off chunks).flatten = ctrFrom c ks j off chunks.flatten := by
  induction chunks generalizing off with
  | nil => rfl
  | cons chunk chunks ih => rw [chunkOutputs, List.flatten_cons, ih, List.flatten_cons, ctrFrom_append]

theorem chunkOutputs_lengths (c : Cipher) (ks : Option KeySchedule) (j : Block) (off : Nat) (chunks : List Bytes) :
    (chunkOutputs c ks j off chunks).map List.length = chunks.map List.length := by
  induction chunks generalizing off with
  | nil => rfl
  | cons chunk chunks ih => rw [chunkOutputs, List.map_cons, ih, ctrFrom_length, List.map_cons]

theorem cipherBytes_append (dir : Dir) (a b oa ob : Bytes) :
    cipherBytes dir (a ++ b) (oa ++ ob) = cipherBytes dir a oa ++ cipherBytes dir b ob := by
  cases dir <;> rfl

/-- R203, the middle of the sequence: after the UPDATEs the ciphertext of all the chunks stands processed, and one response
per chunk has been given. -/
theorem Processing.updates {iv aad ct : Bytes} {s0 s : State} {chunks : List Bytes}
    (hp : Processing Config.cipher iv aad ct s0 s) (dir : Dir) (hbound : ct.length + chunks.flatten.length ≤ 2 ^ 36 - 32) :
    ∃ t, (∀ is, runCommands (chunks.map (updateInstr dir) ++ is) s = runCommands is t) ∧
      t.rsp = s.rsp ++
        ((chunkOutputs Config.cipher s0.ks (deriveJ0 s0.h iv) ct.length chunks).map (responsePacket 0 .active)).flatten ∧
      Processing Config.cipher iv aad
        (ct ++ cipherBytes dir chunks.flatten (ctrFrom Config.cipher s0.ks (deriveJ0 s0.h iv) ct.length chunks.flatten)) s0 t := by
  induction chunks generalizing ct s with
  | nil => exact ⟨s, fun is => rfl, by simp [chunkOutputs], by cases dir <;> simpa [cipherBytes, ctrFrom] using hp⟩
  | cons chunk chunks ih =>
    rw [List.flatten_cons, List.length_append] at hbound
    have hcipher := cipherBytes_length dir
      (ctrFrom_length Config.cipher s0.ks (deriveJ0 s0.h iv) ct.length chunk)
    have hone := hp.update (chunk := chunk) dir (by omega)
    obtain ⟨t, hrun, hrsp, hall⟩ := ih hone (by rw [List.length_append, hcipher]; omega)
    rw [List.length_append, hcipher] at hrsp hall
    refine ⟨t, fun is => ?_, ?_, ?_⟩
    · rw [List.map_cons, List.cons_append, runCommands_cons, commandFor_updateInstr, hrun]
    · rw [hrsp, hp.update_rsp dir (by omega), chunkOutputs, List.map_cons, List.flatten_cons, List.append_assoc]
    · rwa [List.append_assoc, ← cipherBytes_append, ← ctrFrom_append, ← List.flatten_cons] at hall

/-- The same from START on: what is left of the run is the last command. -/
theorem runCommands_message {iv aad : Bytes} {chunks : List Bytes} {s : State} (dir : Dir)
    (hst : s.st = .ready ∨ s.st = .finished) (hkey : KeyBound Config.cipher s) (hiv : iv ≠ []) (haad : aad.length < 2 ^ 61)
    (hbound : chunks.flatten.length ≤ 2 ^ 36 - 32) :
    ∃ t, (∀ i, runCommands (.start iv aad :: chunks.map (updateInstr dir) ++ [i]) s = .next (commandFor Config.cipher i t)) ∧
      t.rsp = s.rsp ++ responsePacket 0 .active [] ++
        ((chunkOutputs Config.cipher s.ks (deriveJ0 s.h iv) 0 chunks).map (responsePacket 0 .active)).flatten ∧
      Processing Config.cipher iv aad
        (cipherBytes dir chunks.flatten (ctr Config.cipher s.ks (deriveJ0 s.h iv) chunks.flatten)) s t := by
  obtain ⟨t, hrun, hrsp, hp⟩ :=
    (startCommand_processing hst hkey hiv haad).updates (chunks := chunks) dir (by simpa using hbound)
  refine ⟨t, fun i => ?_, ?_, hp⟩
  · rw [List.cons_append, runCommands_cons]
    exact (hrun [i]).trans (runCommands_cons i [] t)
  · rw [hrsp, startCommand_rsp aad hst hiv]
    rfl

end Sys2Proof.Machine

namespace Sys2Proof.Proofs

open Sys2Proof.Machine

/-- Settles O51: after the UPDATEs the ciphertext of `gcm_encrypt` stands processed, and FINISH.E outputs the tag of what is
processed. -/
theorem encryptSequenceComputesGcm : Obligations.EncryptSequenceComputesGcm := by
  intro iv aad chunks taglen s hst hkey hiv _ haad hbound hok
  obtain ⟨t, hrun, hrsp, hp⟩ := runCommands_message .enc hst hkey hiv haad hbound
  rw [cipherBytes_enc] at hp
  have hct : (ctr Config.cipher s.ks (deriveJ0 s.h iv) chunks.flatten).length ≤ 2 ^ 36 - 32 := by rwa [ctr, ctrFrom_length]
  have hfinish := hp.finishE hkey hok haad hct
  refine ⟨finishECommand Config.cipher taglen t, chunkOutputs Config.cipher s.ks (deriveJ0 s.h iv) 0 chunks,
    hrun (.finishE taglen), ?_, chunkOutputs_lengths .., ?_⟩
  · rw [hfinish, succeed_rsp, finishEffect_rsp, finishEffect_st, hrsp, gcmEncrypt, ← hkey.2]
  · rw [chunkOutputs_flatten, gcmEncrypt, ← hkey.2]
    rfl

/-- Settles O52: after the UPDATEs the input itself stands processed as ciphertext, and FINISH.D compares its tag. -/
theorem decryptSequenceVerifiesGcm : Obligations.DecryptSequenceVerifiesGcm := by
  intro iv aad tag chunks taglen s hst hkey hiv _ haad hbound hok hlen
  obtain ⟨t, hrun, hrsp, hp⟩ := runCommands_message .dec hst hkey hiv haad hbound
  rw [cipherBytes_dec] at hp
  have hfinish := hp.finishD hkey hok hlen haad hbound
  refine ⟨finishDCommand Config.cipher taglen tag t, chunkOutputs Config.cipher s.ks (deriveJ0 s.h iv) 0 chunks,
    hrun (.finishD taglen tag), ?_, chunkOutputs_lengths .., chunkOutputs_flatten .., ?_⟩
  · rw [hfinish, respond_rsp, respond_code, finishEffect_rsp, finishEffect_st, hrsp]
  · rw [hfinish, respond_code, gcmDecrypt_eq _ _ iv aad _ hok hlen]
    by_cases htag : gcmTag Config.cipher s.ks iv aad chunks.flatten taglen.toNat = tag
    · rw [if_pos htag, if_pos htag]
      exact ⟨iff_of_true rfl rfl, .inl rfl⟩
    · rw [if_neg htag, if_neg htag]
      exact ⟨iff_of_false (by decide) (by decide), .inr rfl⟩

end Sys2Proof.Proofs
end

section
/-!
The host's one-shot sequences ENCRYPT and DECRYPT (R204, R212, R213).
-/
namespace Sys2Proof.Machine

theorem newResponse_eq {s t : State} {code : BitVec 8} {st : EngineState} {out : Bytes}
    (h : t.rsp = s.rsp ++ responsePacket code st out) : newResponse s t = ⟨code, st.bits, out⟩ := by
  rw [newResponse, h, List.drop_left, responseOfPacket_responsePacket]

/-- The host goes on from the command's state with the response the command has just given. -/
theorem issue_eq {α : Type} {i : Instr} {s t : State} {code : BitVec 8} {st : EngineState} {out : Bytes}
    (hrsp : t.rsp = s.rsp ++ responsePacket code st out) (ht : commandFor Config.cipher i s = t)
    (k : State → Response → Host.Outcome α Fault Refusal) : issue i s k = k t ⟨code, st.bits, out⟩ := by
  rw [issue, exec_eq_commandFor, ht]
  exact congrArg (k t) (newResponse_eq hrsp)

section issued
variable {α : Type} {iv aad ct chunk tag : Bytes} {taglen : BitVec 8} {s0 s : State}

/-! What the host reads from each command of a sequence that is not rejected. -/

theorem issue_start (aad : Bytes) (hst : s.st = .ready ∨ s.st = .finished) (hiv : iv ≠ [])
    (k : State → Response → Host.Outcome α Fault Refusal) :
    issue (.start iv aad) s k = k (startCommand iv aad s) ⟨0, EngineState.active.bits, []⟩ :=
  issue_eq (startCommand_rsp aad hst hiv) rfl k

theorem Processing.issue_updateE (hp : Processing Config.cipher iv aad ct s0 s)
    (hbound : ct.length + chunk.length ≤ 2 ^ 36 - 32) (k : State → Response → Host.Outcome α Fault Refusal) :
    issue (.updateE chunk) s k = k (updateCommand Config.cipher .enc chunk s)
      ⟨0, EngineState.active.bits, ctrFrom Config.cipher s0.ks (deriveJ0 s0.h iv) ct.length chunk⟩ :=
  issue_eq (hp.update_rsp .enc hbound) rfl k

theorem Processing.issue_updateD (hp : Processing Config.cipher iv aad ct s0 s)
    (hbound : ct.length + chunk.length ≤ 2 ^ 36 - 32) (k : State → Response → Host.Outcome α Fault Refusal) :
    issue (.updateD chunk) s k = k (updateCommand Config.cipher .dec chunk s)
      ⟨0, EngineState.active.bits, ctrFrom Config.cipher s0.ks (deriveJ0 s0.h iv) ct.length chunk⟩ :=
  issue_eq (hp.update_rsp .dec hbound) rfl k

theorem Processing.issue_finishE (hp : Processing Config.cipher iv aad ct s0 s) (hkey : KeyBound Config.cipher s0)
    (hok : taglenOk taglen.toNat = true) (haad : aad.length < 2 ^ 61) (hct : ct.length ≤ 2 ^ 36 - 32)
    (k : State → Response → Host.Outcome α Fault Refusal) :
    issue (.finishE taglen) s k = k (finishECommand Config.cipher taglen s)
      ⟨0, EngineState.finished.bits, gcmTag Config.cipher s0.ks iv aad ct taglen.toNat⟩ := by
  refine issue_eq ?_ rfl k
  rw [commandFor, hp.finishE hkey hok haad hct, succeed_rsp, finishEffect_rsp, finishEffect_st]

theorem Processing.issue_finishD (hp : Processing Config.cipher iv aad ct s0 s) (hkey : KeyBound Config.cipher s0)
    (hok : taglenOk taglen.toNat = true) (hlen : tag.length = taglen.toNat / 8) (haad : aad.length < 2 ^ 61)
    (hct : ct.length ≤ 2 ^ 36 - 32) (k : State → Response → Host.Outcome α Fault Refusal) :
    issue (.finishD taglen tag) s k = k (finishDCommand Config.cipher taglen tag s)
      ⟨Status.number (if gcmTag Config.cipher s0.ks iv aad ct taglen.toNat = tag then .ok else .authenticationFailed),
        EngineState.finished.bits, []⟩ := by
  refine issue_eq ?_ rfl k
  rw [commandFor, hp.finishD hkey hok hlen haad hct, respond_rsp, finishEffect_rsp, finishEffect_st]

end issued

section oneShot
variable {iv aad : Bytes} {taglen : BitVec 8} {s : State}

/-- The state after START and one UPDATE of the whole data. -/
def afterUpdate (dir : Dir) (iv aad data : Bytes) (s : State) : State :=
  updateCommand Config.cipher dir data (startCommand iv aad s)

theorem afterUpdate_processing {data : Bytes} (dir : Dir) (hst : s.st = .ready ∨ s.st = .finished)
    (hkey : KeyBound Config.cipher s) (hiv : iv ≠ []) (haad : aad.length < 2 ^ 61) (hbound : data.length ≤ 2 ^ 36 - 32) :
    Processing Config.cipher iv aad (cipherBytes dir data (ctr Config.cipher s.ks (deriveJ0 s.h iv) data)) s
      (afterUpdate dir iv aad data s) :=
  (startCommand_processing hst hkey hiv haad).update dir (by simpa using hbound)

/-- R212: within the conditions on the operands no command of ENCRYPT is rejected, and the key stays bound. -/
theorem encryptOneShot_eq {pt ct : Bytes} (hst : s.st = .ready ∨ s.st = .finished) (hkey : KeyBound Config.cipher s)
    (hiv : iv ≠ []) (haad : aad.length < 2 ^ 61) (hbound : pt.length ≤ 2 ^ 36 - 32) (hok : taglenOk taglen.toNat = true)
    (hct : ct = ctr Config.cipher s.ks (deriveJ0 s.h iv) pt) :
    ∃ t, t.st = .finished ∧ t.ks = s.ks ∧ t.h = s.h ∧
      encryptOneShot iv aad pt taglen s = .next (t, .ok (ct, gcmTag Config.cipher s.ks iv aad ct taglen.toNat)) := by
  have hstarted := startCommand_processing hst hkey hiv haad
  have hp := afterUpdate_processing .enc hst hkey hiv haad hbound
  rw [cipherBytes_enc, ← hct] at hp
  have hlength : ct.length ≤ 2 ^ 36 - 32 := by rwa [hct, ctr, ctrFrom_length]
  refine ⟨finishECommand Config.cipher taglen (afterUpdate .enc iv aad pt s), ?_, ?_, ?_, ?_⟩
  · rw [hp.finishE hkey hok haad hlength, succeed_st, finishEffect_st]
  · rw [hp.finishE hkey hok haad hlength, succeed_ks, finishEffect_ks, hp.ks_eq]
  · rw [hp.finishE hkey hok haad hlength, succeed_h, finishEffect_h, hp.h_eq]
  · rw [encryptOneShot, issue_start aad hst hiv, if_neg (not_not.mpr rfl), hstarted.issue_updateE (by simpa using hbound),
      if_neg (not_not.mpr rfl), ← afterUpdate, hp.issue_finishE hkey hok haad hlength, if_neg (not_not.mpr rfl), hct]
    rfl

/-- R213: DECRYPT returns what `gcm_decrypt` does, and leaves the engine in Finished either way. -/
theorem decryptOneShot_eq {ct tag : Bytes} (hst : s.st = .ready ∨ s.st = .finished) (hkey : KeyBound Config.cipher s)
    (hiv : iv ≠ []) (haad : aad.length < 2 ^ 61) (hbound : ct.length ≤ 2 ^ 36 - 32) (hok : taglenOk taglen.toNat = true)
    (hlen : tag.length = taglen.toNat / 8) :
    ∃ t, t.st = .finished ∧ decryptOneShot iv aad ct tag taglen s =
      .next (t, if gcmTag Config.cipher s.ks iv aad ct taglen.toNat = tag
        then .ok (ctr Config.cipher s.ks (deriveJ0 s.h iv) ct) else .error 5) := by
  have hstarted := startCommand_processing hst hkey hiv haad
  have hp := afterUpdate_processing .dec hst hkey hiv haad hbound
  rw [cipherBytes_dec] at hp
  have hcheck : (taglenOk taglen.toNat && givenTagFits taglen (some tag.length)) = true := by
    simp [givenTagFits, hok, hlen]
  refine ⟨finishDCommand Config.cipher taglen tag (afterUpdate .dec iv aad ct s), ?_, ?_⟩
  · rw [hp.finishD hkey hok hlen haad hbound, respond_st, finishEffect_st]
  · rw [decryptOneShot, if_pos hcheck, issue_start aad hst hiv, if_neg (not_not.mpr rfl),
      hstarted.issue_updateD (by simpa using hbound), if_neg (not_not.mpr rfl), ← afterUpdate,
      hp.issue_finishD hkey hok hlen haad hbound]
    by_cases htag : gcmTag Config.cipher s.ks iv aad ct taglen.toNat = tag
    · simp only [if_pos htag]
      rfl
    · simp only [if_neg htag]
      rfl

end oneShot

end Sys2Proof.Machine

namespace Sys2Proof.Proofs

open Sys2Proof.Machine

/-- Settles O53: DECRYPT recomputes the tag ENCRYPT gave, and the keystream is its own inverse. -/
theorem decryptOfEncryptIsThePlaintext : Obligations.DecryptOfEncryptIsThePlaintext := by
  intro iv aad pt taglen s hst hkey hiv _ haad hbound hok
  obtain ⟨ct, hct⟩ : ∃ ct, ct = ctr Config.cipher s.ks (deriveJ0 s.h iv) pt := ⟨_, rfl⟩
  have hgcm : gcmEncrypt Config.cipher s.ks iv aad pt taglen.toNat = (ct, gcmTag Config.cipher s.ks iv aad ct taglen.toNat) := by
    rw [hct, hkey.2]
    rfl
  have hlength : ct.length ≤ 2 ^ 36 - 32 := by rwa [hct, ctr, ctrFrom_length]
  obtain ⟨s1, hst1, hks1, hh1, hencrypt⟩ := encryptOneShot_eq hst hkey hiv haad hbound hok hct
  have hkey1 : KeyBound Config.cipher s1 := by rwa [KeyBound, hks1, hh1]
  obtain ⟨s2, -, hdecrypt⟩ := decryptOneShot_eq (.inr hst1) hkey1 hiv haad hlength hok
    (gcmTag_length Config.cipher s.ks iv aad ct hok)
  refine ⟨s1, s2, ct, _, hencrypt, hgcm.symm, ?_⟩
  rw [hdecrypt, hks1, hh1, if_pos rfl, hct, ctr, ctr, ctrFrom_ctrFrom]

/-- Settles O54: the case of `decryptOneShot_eq` in which the tags differ. -/
theorem decryptOfAForgeryFails : Obligations.DecryptOfAForgeryFails := by
  intro iv aad ct tag taglen s hst hkey hiv _ haad hbound hok hlen hforged
  obtain ⟨t, ht, hdecrypt⟩ := decryptOneShot_eq hst hkey hiv haad hbound hok hlen
  rw [if_neg hforged.symm] at hdecrypt
  exact ⟨t, hdecrypt, ht⟩

end Sys2Proof.Proofs
end
